-- ==== Sys2Proof/Word.lean ====
section
/-! DEFINITION. The word types of the block (spec/00_scope.md R8, R13, R14): every PIC and ATA register is 8 bits,
the ATA data register is 16 bits, and the splitting utility works on values of at most 64 bits. Bit 0 is the least
significant bit and every value is unsigned. Addresses, cursors, counts and sector numbers are natural numbers (R14,
R61), so they have no word type. -/
namespace Sys2Proof

/-- An 8-bit device register or the datum of a one-byte port access (R8). -/
abbrev Byte := BitVec 8

/-- The 16-bit ATA data register and the XTIDE latch (R47, R66). -/
abbrev Half := BitVec 16

/-- A bus datum of 1, 2, 4 or 8 bytes, held in 64 bits with zeros above (R8, R66). -/
abbrev Quad := BitVec 64

end Sys2Proof
end

