-- ==== Sys2Proof/Config.lean ====
section
/-! DEFINITION. What a platform or a caller chooses: the identities of devices, the operand types of the block's
operations (spec/30_encoding.md R124, R125), the parameters of spec/00_scope.md R9 to R12, example values for them, and
the two free values of the model. Plain data only, but for the free values, which have no body. -/
namespace Sys2Proof

/-- The two ATA devices of the channel (R270: both are present). -/
inductive Drive where
  | master
  | slave
deriving DecidableEq, Repr, Inhabited

/-- The two address spaces, each owned by one dispatcher (R11, R60). -/
inductive Space where
  | io
  | mem
deriving DecidableEq, Repr, Inhabited

/-- The five states of the PIC's command machine (R21). -/
inductive PicFsm where
  | idle
  | waitingForIcw2
  | waitingForIcw3
  | waitingForIcw4
  | poll
deriving DecidableEq, Repr, Inhabited

/-- The two ports of a PIC (R91). -/
inductive PicPort where
  | command
  | data
deriving DecidableEq, Repr, Inhabited

/-- The direction of a port access (R90). -/
inductive Direction where
  | read
  | write
deriving DecidableEq, Repr, Inhabited

/-- A one-byte port access: its direction and, for a write, its datum (R90). -/
inductive ByteAccess where
  | read
  | write (b : Byte)
deriving DecidableEq, Repr, Inhabited

/-- An access on the 16-bit ATA bus: its direction and, for a write, its datum (R210, R270). -/
inductive Access where
  | read
  | write (v : Half)
deriving DecidableEq, Repr, Inhabited

/-- The two register blocks of an ATA device (R110, R111). -/
inductive AtaBlock where
  | command
  | control
deriving DecidableEq, Repr, Inhabited

/-- The transfer-state tag of an ATA device (R39). -/
inductive Xfer where
  | idle
  | pioRead
  | pioWrite
deriving DecidableEq, Repr, Inhabited

/-- The kind of an in-progress multi-sector operation (R43). -/
inductive OpKind where
  | read
  | write
deriving DecidableEq, Repr, Inhabited

/-- The steps a device worker can take (R230). -/
inductive WorkerKind where
  | stop
  | reset
  | command
  | continueRead
  | continueWrite
deriving DecidableEq, Repr, Inhabited

/-- What an acknowledge cycle finds: nothing unserviced (R184), a line of the PIC's own (R183), or a line with a
secondary PIC chained on it (R186). -/
inductive AckKind where
  | nothing
  | own
  | cascade
deriving DecidableEq, Repr, Inhabited

/-- The register-style handlers of the block, each a window of one-byte ports: the two ports of a PIC (R160 a), the one
port of its ELCR (R160 b), the XTIDE window (R280). -/
inductive PortDevice where
  | pic (p : Nat)
  | elcr (p : Nat)
  | xtide
deriving DecidableEq, Repr, Inhabited

/-- A handler as the dispatcher sees it (R143): one of the block's port devices, or a handler with a contiguous
host-memory backing (R71, R142). R312 lets an address of a chipset device that is out of scope belong to a handler that the
model's user supplies, or be unresolved; the model has no register handler but the block's own, so such an address is
unresolved (DESIGN CHOICE, notes/assumptions/33.md). -/
inductive Handler where
  | port (dev : PortDevice)
  | memory (m : Nat)
deriving DecidableEq, Repr, Inhabited

/-- `AddressRange`: a half-open interval of byte addresses, the number added to the relative address, and the handler
(R34). -/
structure AddressRange where
  beginAddress : Nat
  endAddress : Nat
  offset : Nat
  handler : Handler
deriving DecidableEq, Repr, Inhabited

/-- What `XTIDE_MAP` makes of an offset of the XTIDE window (R123). -/
inductive XtPort where
  | commandBlock (i : Fin 8)
  | controlBlock
  | dataHigh
  | unmapped
deriving DecidableEq, Repr, Inhabited

/-- What can be done with a registration handle (R37, R135): `release`, destruction, or a move to a new handle. -/
inductive HandleOp where
  | release
  | destroy
  | move
deriving DecidableEq, Repr, Inhabited

/-- The agents of R7 and R313: threads of the CPU engine, the worker of each ATA device, the PIT worker, the thread of a
device outside the block that drives an interrupt line, and the configuration host. -/
inductive Agent where
  | engine (k : Nat)
  | worker (d : Drive)
  | pit
  | device (k : Nat)
  | host
deriving DecidableEq, Repr, Inhabited

/-- One line of one PIC: the receiver of an interrupt wire (R48). -/
structure LineRef where
  pic : Nat
  line : Fin 8
deriving DecidableEq, Repr, Inhabited

/-- `LINE_WIRING` for the two line drivers inside the block: the demux output and the PIT (R9, R295). -/
structure Wiring where
  muxLine : Option LineRef
  pitLine : Option LineRef
deriving DecidableEq, Repr, Inhabited

/-- `(heads, sectorsPerTrack)` (R12, R42). -/
structure Geometry where
  heads : Nat
  sectorsPerTrack : Nat
deriving DecidableEq, Repr, Inhabited

/-- The parameters of one disk (R12): `TOTAL_SECTORS`, `DEFAULT_GEOMETRY`, `MAX_MULTIPLE`, and every byte of
`IDENTIFY_DATA` that R122 and R250 do not constrain. -/
structure DiskParams where
  totalSectors : Nat
  defaultGeometry : Geometry
  maxMultiple : Nat
  identifyRest : List Host.Cell
deriving DecidableEq, Repr, Inhabited

/-- The example `XTIDE_MAP` of spec/95_test_vectors.md part 2.9. The map is a field of the state; this list is only the
value it has at reset (DESIGN CHOICE, unsafe: notes/assumptions/5.md). -/
def Config.exampleXtideMap : List (Nat × XtPort) :=
  [(0, .commandBlock 0), (1, .commandBlock 1), (2, .commandBlock 2), (3, .commandBlock 3), (4, .commandBlock 4),
   (5, .commandBlock 5), (6, .commandBlock 6), (7, .commandBlock 7), (8, .dataHigh), (14, .controlBlock)]

/-- The example disk of spec/95_test_vectors.md part 2.7 (DESIGN CHOICE, unsafe: notes/assumptions/5.md). -/
def Config.exampleDisk : DiskParams :=
  { totalSectors := 1000000, defaultGeometry := { heads := 16, sectorsPerTrack := 63 }, maxMultiple := 16,
    identifyRest := [] }

/-- FREE VALUE. Which agent takes a step that the state's schedule does not settle, as a function of the number of steps
taken: R7 and R73 allow every interleaving (notes/assumptions/3.md). -/
opaque Config.freeAgent : Nat → Agent

/-- FREE VALUE. What a byte of a device's transfer buffer holds while nothing has been put there: R39 leaves it
unspecified (notes/assumptions/8.md). -/
opaque Config.unfilledBuffer : Drive → Nat → Byte

end Sys2Proof
end

