-- ==== Sys2Proof/Syntax.lean ====
section
/-! DEFINITION. The operations of the block, one constructor per row of spec/opcode_table.json, in the table's order.
"Instruction" means what spec/00_scope.md R6 says: one bus access, one contract call or one worker step. Operands are the
typed arguments of spec/30_encoding.md R124 and, for a port write, the byte written. Which row an access is depends on
the port, the direction, the byte and the sequencing state of its device (R90): Sys2Proof/Decode.lean chooses it. -/
namespace Sys2Proof

/-- The operations of the block, one per row of the opcode table. -/
inductive Instr where
  /-- R162. Command-port write of `b` with the ICW1 marker to PIC `p`. -/
  | icw1 (p : Nat) (b : Byte)
  /-- R168. Command-port write of a non-specific EOI byte `b`. -/
  | ocw2Eoi (p : Nat) (b : Byte)
  /-- R169. Command-port write of a specific EOI byte `b`; bits 2:0 name the line. -/
  | ocw2Seoi (p : Nat) (b : Byte)
  /-- R171. OCW2 with `R SL EOI = 0 1 0`. -/
  | ocw2NopSl (p : Nat) (b : Byte)
  /-- R171. OCW2 with `R SL EOI = 0 0 0`. -/
  | ocw2Nop0 (p : Nat) (b : Byte)
  /-- R171. OCW2 with the rotate bit set. -/
  | ocw2Rotate (p : Nat) (b : Byte)
  /-- R170. OCW3 without POLL and without SMM. -/
  | ocw3 (p : Nat) (b : Byte)
  /-- R170. OCW3 with POLL and without SMM. -/
  | ocw3Poll (p : Nat) (b : Byte)
  /-- R170. OCW3 with the special-mask bit set. -/
  | ocw3Smm (p : Nat) (b : Byte)
  /-- R172. A command-port write without the ICW1 marker outside `Idle`. -/
  | picCmdWriteUnspec (p : Nat) (b : Byte)
  /-- R163. Data-port write in `WaitingForICW2`. -/
  | icw2 (p : Nat) (b : Byte)
  /-- R165. Data-port write in `WaitingForICW3`. -/
  | icw3 (p : Nat) (b : Byte)
  /-- R166. Data-port write in `WaitingForICW4`. -/
  | icw4 (p : Nat) (b : Byte)
  /-- R167. Data-port write in `Idle`: the mask. -/
  | ocw1 (p : Nat) (b : Byte)
  /-- R172. Data-port write in `Poll`. -/
  | picDataWriteUnspec (p : Nat) (b : Byte)
  /-- R173. Data-port read in `Poll`. -/
  | pollRead (p : Nat)
  /-- R174. Data-port read outside `Poll`. -/
  | maskRead (p : Nat)
  /-- R175. Command-port read outside `Poll`. -/
  | irrIsrRead (p : Nat)
  /-- R172. Command-port read in `Poll`. -/
  | picCmdReadUnspec (p : Nat)
  /-- R161, R176. Access at an offset that is no port of a PIC or of an ELCR. -/
  | picBadPort (dev : PortDevice) (off : Nat) (acc : ByteAccess)
  /-- R176. ELCR write. -/
  | elcrWrite (p : Nat) (b : Byte)
  /-- R177. ELCR read. -/
  | elcrRead (p : Nat)
  /-- R178. `setInterruptLineAsserted(n, a)` on a level-triggered line. -/
  | lineLevel (p : Nat) (n : Fin 8) (a : Bool)
  /-- R179. `setInterruptLineAsserted(n, a)` on an edge-triggered line. -/
  | lineEdge (p : Nat) (n : Fin 8) (a : Bool)
  /-- R183. `processInterruptAcknowledge()` with a line of the PIC's own unserviced. -/
  | inta (p : Nat)
  /-- R184. `processInterruptAcknowledge()` with nothing unserviced. -/
  | intaSpurious (p : Nat)
  /-- R186. `processInterruptAcknowledge()` where the selected line has a secondary PIC. -/
  | intaCascade (p : Nat)
  /-- R126. The initialization handshake as one sequence. -/
  | picInit (p : Nat) (i1 i2 i3 i4 : Byte)
  /-- R126. `PICW p.cmd, 0x20`. -/
  | eoi (p : Nat)
  /-- R126. `PICW p.cmd, 0x60 + n`. -/
  | seoi (p : Nat) (n : Fin 8)
  /-- R126. `PICW p.cmd, 0x0C; PICR p.data`. -/
  | poll (p : Nat)
  /-- R126. `PICW p.data, m` in state `Idle`. -/
  | mask (p : Nat) (m : Byte)
  /-- R132. Split write of `sz` bytes of `v` at offset `a` of a handler of word size `w`. -/
  | splitWrite (h : Handler) (a sz : Nat) (v : Quad) (w : Nat)
  /-- R133. Split read of `sz` bytes at offset `a` of a handler of word size `w`. -/
  | splitRead (h : Handler) (a sz w : Nat)
  /-- R134. `registerAddressRange(base, limit, handler, offset)`. -/
  | reg (sp : Space) (base limit : Nat) (h : Handler) (off : Nat)
  /-- R135. `release()`, destruction or move of registration handle `k`. -/
  | release (k : Nat) (op : HandleOp)
  /-- R136. `unregisterAddressRange(r)`. -/
  | unreg (sp : Space) (r : AddressRange)
  /-- R137. Resolution of an address. -/
  | resolve (sp : Space) (a : Nat)
  /-- R138. `read(address, size)`. -/
  | inPort (sp : Space) (a sz : Nat)
  /-- R139. `write(address, size, data)`. -/
  | outPort (sp : Space) (a sz : Nat) (v : Quad)
  /-- R140. `establishMappings(cpuEngine, base, limit)`. -/
  | establishMappings (sp : Space) (engine base limit : Nat)
  /-- R141. `removeMappings()`. -/
  | removeMappings (sp : Space)
  /-- R214. Write Feature. -/
  | ataFeatureW (d : Drive) (b : Byte)
  /-- R215. Write Sector Count. -/
  | ataSectorCountW (d : Drive) (b : Byte)
  /-- R215. Write Sector Number. -/
  | ataSectorNumberW (d : Drive) (b : Byte)
  /-- R215. Write Cylinder Low. -/
  | ataCylinderLowW (d : Drive) (b : Byte)
  /-- R215. Write Cylinder High. -/
  | ataCylinderHighW (d : Drive) (b : Byte)
  /-- R216. Write Drive/Head of one device. -/
  | ataDriveHeadW (d : Drive) (b : Byte)
  /-- R213. Register write at index 1 to 6 while BUSY. -/
  | ataGatedW (d : Drive) (i : Nat) (b : Byte)
  /-- R218. Write Command. -/
  | ataCommandW (d : Drive) (b : Byte)
  /-- R227. Write Data during a PIO write. -/
  | ataDataW (d : Drive) (v : Half)
  /-- R228. Write Data outside a PIO write. -/
  | ataDataWIdle (d : Drive) (v : Half)
  /-- R226. Read Data during a PIO read. -/
  | ataDataR (d : Drive)
  /-- R228. Read Data outside a PIO read. -/
  | ataDataRIdle (d : Drive)
  /-- R220. Read Error. -/
  | ataErrorR (d : Drive)
  /-- R220. Read Sector Count. -/
  | ataSectorCountR (d : Drive)
  /-- R220. Read Sector Number. -/
  | ataSectorNumberR (d : Drive)
  /-- R220. Read Cylinder Low. -/
  | ataCylinderLowR (d : Drive)
  /-- R220. Read Cylinder High. -/
  | ataCylinderHighR (d : Drive)
  /-- R220. Read Drive/Head. -/
  | ataDriveHeadR (d : Drive)
  /-- R219. Read Status. -/
  | ataStatusR (d : Drive)
  /-- R221. Read at index 0 to 6 while BUSY. -/
  | ataBusyR (d : Drive) (i : Nat)
  /-- R217. Access at an unsupported index. -/
  | ataBadIndex (d : Drive) (blk : AtaBlock) (i : Nat) (acc : Access)
  /-- R222. Read Alternate Status. -/
  | ataAltStatusR (d : Drive)
  /-- R223. Write Device Control. -/
  | ataDeviceControlW (d : Drive) (b : Byte)
  /-- R240. Command 0x10. -/
  | recalibrate (d : Drive)
  /-- R242. Command 0x20. -/
  | readSectors (d : Drive)
  /-- R242. Command 0x21. -/
  | readSectorsNoRetry (d : Drive)
  /-- R243. Command 0x30. -/
  | writeSectors (d : Drive)
  /-- R243. Command 0x31. -/
  | writeSectorsNoRetry (d : Drive)
  /-- R240. Command 0x70. -/
  | seek (d : Drive)
  /-- R241. Command 0x91. -/
  | initializeDriveParameters (d : Drive)
  /-- R244. Command 0xC4. -/
  | readMultiple (d : Drive)
  /-- R245. Command 0xC5. -/
  | writeMultiple (d : Drive)
  /-- R246. Command 0xC6. -/
  | setMultipleMode (d : Drive)
  /-- R250. Command 0xEC. -/
  | identifyDrive (d : Drive)
  /-- R251. Command 0xEF. -/
  | setFeatures (d : Drive)
  /-- R252. Any other opcode. -/
  | ataUnknownCommand (d : Drive) (opcode : Byte)
  /-- R236. The worker stops. -/
  | workerStop (d : Drive)
  /-- R231. The worker serves a reset request. -/
  | workerReset (d : Drive)
  /-- R232, R233. The worker takes, executes and completes the command. -/
  | workerCommand (d : Drive)
  /-- R234. The worker loads the next chunk of a read. -/
  | workerContinueRead (d : Drive)
  /-- R235. The worker stores the chunk of a write. -/
  | workerContinueWrite (d : Drive)
  /-- R271. Command-block access forwarded to the selected device. -/
  | muxForward (i : Nat) (acc : Access)
  /-- R272. Drive/Head write through the demux. -/
  | muxDriveHeadW (b : Byte)
  /-- R274. Device Control broadcast. -/
  | muxDeviceControlW (b : Byte)
  /-- R275. Control-block read through the demux. -/
  | muxAltStatusR
  /-- R276. A device's interrupt notification reaches the demux. -/
  | muxNotify (d : Drive)
  /-- R281. Data read, low byte, at window offset `o`. -/
  | xtDataLowR (o : Nat)
  /-- R282. Data read, high byte. -/
  | xtDataHighR (o : Nat)
  /-- R283. Data write, high byte. -/
  | xtDataHighW (o : Nat) (b : Byte)
  /-- R284. Data write, low byte. -/
  | xtDataLowW (o : Nat) (b : Byte)
  /-- R285. Other command-block registers. -/
  | xtReg (o : Nat) (acc : ByteAccess)
  /-- R286. Control block. -/
  | xtControl (o : Nat) (acc : ByteAccess)
  /-- R287. Unmapped offset. -/
  | xtUnmapped (o : Nat) (acc : ByteAccess)
deriving DecidableEq, Repr

end Sys2Proof
end

