-- ==== Sys2Proof/WellFormed.lean ====
section
/-! DEFINITION. Which instructions are well formed: the checks the spec puts on the operands of each row of the opcode
table (the row's match and mask, the widths of R8, the address bound of R61, the indices of R110 and R111). -/
namespace Sys2Proof

/-- The access widths and register-word sizes, 1, 2, 4 and 8 bytes (R8, R66, R130). -/
def sizeOk (n : Nat) : Bool := n == 1 || n == 2 || n == 4 || n == 8

/-- An address and `address + 8` fit in 64 bits (R61). -/
def addressOk (a : Nat) : Bool := decide (a + 8 < 2 ^ 64)

/-- An address of a space of `bits` address bits (R9, R61: `IO_ADDR_BITS`, `MEM_ADDR_BITS`; notes/assumptions/5.md). -/
def inSpace (bits a : Nat) : Bool := decide (a < 2 ^ bits)

/-- The exclusive end of an interval in a space of `bits` address bits (R34, R61). -/
def endsInSpace (bits limit : Nat) : Bool := decide (limit ≤ 2 ^ bits)

/-- A datum of `sz` bytes has no bit above them (R139: such bits do not exist). -/
def dataOk (sz : Nat) (v : Quad) : Bool := decide (v.toNat < 2 ^ (8 * sz))

/-- A PIC, an ELCR and the XTIDE window use the splitting utility with `W = 1`; a host-memory handler takes any word
size (R69, R161, R280, R130). -/
def wordOk : Handler → Nat → Bool
  | .port _, w => w == 1
  | .memory _, w => sizeOk w

/-- The datum of an ATA access at an index other than 0 has 8 bits (R66, R110). -/
def accessFits (i : Nat) : Access → Bool
  | .read => true
  | .write v => i == 0 || decide (7 < i) || decide (v.toNat < 256)

/-- The twelve opcodes of R116. -/
def knownOpcode (b : Byte) : Bool :=
  b == 0x10 || b == 0x20 || b == 0x21 || b == 0x30 || b == 0x31 || b == 0x70 || b == 0x91 || b == 0xC4 || b == 0xC5 ||
  b == 0xC6 || b == 0xEC || b == 0xEF

/-- An offset of a port device that is none of its registers (R161, R176); every offset of the XTIDE window is decoded by
`XTIDE_MAP` instead. -/
def badOffset : PortDevice → Nat → Bool
  | .pic _, off => decide (2 ≤ off)
  | .elcr _, off => decide (1 ≤ off)
  | .xtide, _ => false

/-- An index that the register block does not have (R217). -/
def badIndex : AtaBlock → Nat → Bool
  | .command, i => decide (7 < i)
  | .control, i => i != 6

/-- A row's operands are ones the spec gives it. -/
def Instr.wellFormed : Instr → Bool
  | .icw1 _ b => b &&& 0x10 != 0
  | .ocw2Eoi _ b => b &&& 0xF8 == 0x20
  | .ocw2Seoi _ b => b &&& 0xF8 == 0x60
  | .ocw2NopSl _ b => b &&& 0xF8 == 0x40
  | .ocw2Nop0 _ b => b &&& 0xF8 == 0x00
  | .ocw2Rotate _ b => b &&& 0x98 == 0x80
  | .ocw3 _ b => b &&& 0x3C == 0x08
  | .ocw3Poll _ b => b &&& 0x3C == 0x0C
  | .ocw3Smm _ b => b &&& 0x38 == 0x28
  | .picCmdWriteUnspec _ b => b &&& 0x10 == 0
  | .icw2 _ _ => true
  | .icw3 _ _ => true
  | .icw4 _ _ => true
  | .ocw1 _ _ => true
  | .picDataWriteUnspec _ _ => true
  | .pollRead _ => true
  | .maskRead _ => true
  | .irrIsrRead _ => true
  | .picCmdReadUnspec _ => true
  | .picBadPort dev off _ => badOffset dev off
  | .elcrWrite _ _ => true
  | .elcrRead _ => true
  | .lineLevel _ _ _ => true
  | .lineEdge _ _ _ => true
  | .inta _ => true
  | .intaSpurious _ => true
  | .intaCascade _ => true
  | .picInit _ i1 _ _ _ => i1 &&& 0x10 != 0
  | .eoi _ => true
  | .seoi _ _ => true
  | .poll _ => true
  | .mask _ _ => true
  | .splitWrite h _ sz v w => sizeOk sz && wordOk h w && dataOk sz v
  | .splitRead h _ sz w => sizeOk sz && wordOk h w
  | .reg _ base limit _ off => addressOk base && addressOk limit && addressOk off
  | .release _ _ => true
  | .unreg _ _ => true
  | .resolve _ a => addressOk a
  | .inPort _ a sz => sizeOk sz && addressOk a
  | .outPort _ a sz v => sizeOk sz && addressOk a && dataOk sz v
  | .establishMappings _ _ base limit => addressOk base && addressOk limit
  | .removeMappings _ => true
  | .ataFeatureW _ _ => true
  | .ataSectorCountW _ _ => true
  | .ataSectorNumberW _ _ => true
  | .ataCylinderLowW _ _ => true
  | .ataCylinderHighW _ _ => true
  | .ataDriveHeadW _ _ => true
  | .ataGatedW _ i _ => decide (1 ≤ i ∧ i ≤ 6)
  | .ataCommandW _ _ => true
  | .ataDataW _ _ => true
  | .ataDataWIdle _ _ => true
  | .ataDataR _ => true
  | .ataDataRIdle _ => true
  | .ataErrorR _ => true
  | .ataSectorCountR _ => true
  | .ataSectorNumberR _ => true
  | .ataCylinderLowR _ => true
  | .ataCylinderHighR _ => true
  | .ataDriveHeadR _ => true
  | .ataStatusR _ => true
  | .ataBusyR _ i => decide (i ≤ 6)
  | .ataBadIndex _ blk i _ => badIndex blk i
  | .ataAltStatusR _ => true
  | .ataDeviceControlW _ _ => true
  | .recalibrate _ => true
  | .readSectors _ => true
  | .readSectorsNoRetry _ => true
  | .writeSectors _ => true
  | .writeSectorsNoRetry _ => true
  | .seek _ => true
  | .initializeDriveParameters _ => true
  | .readMultiple _ => true
  | .writeMultiple _ => true
  | .setMultipleMode _ => true
  | .identifyDrive _ => true
  | .setFeatures _ => true
  | .ataUnknownCommand _ opcode => !knownOpcode opcode
  | .workerStop _ => true
  | .workerReset _ => true
  | .workerCommand _ => true
  | .workerContinueRead _ => true
  | .workerContinueWrite _ => true
  | .muxForward i acc => accessFits i acc && (i != 6 || acc == .read)
  | .muxDriveHeadW _ => true
  | .muxDeviceControlW _ => true
  | .muxAltStatusR => true
  | .muxNotify _ => true
  | .xtDataLowR _ => true
  | .xtDataHighR _ => true
  | .xtDataHighW _ _ => true
  | .xtDataLowW _ _ => true
  | .xtReg _ _ => true
  | .xtControl _ _ => true
  | .xtUnmapped _ _ => true

end Sys2Proof
end

