-- ==== Sys2Proof/Decode.lean ====
section
/-! DEFINITION. From an event of spec/30_encoding.md R125 to the row of the opcode table it is, and back.

An operation of a port-style device is selected by the tuple (port, direction, byte, sequencing state) (R90); a contract
call is an event with typed arguments (R124). `Event` is that tuple or call, `Ctx` the sequencing state that decoding
reads, `decode` the tables R92 to R94, R101, R102, R110, R116 and R123, and `encode` the event of a row. -/
namespace Sys2Proof

/-- One event: a port access, a contract call or a worker step (R125). -/
inductive Event where
  /-- `PICW`, `ELCRW`, or a byte write in the XTIDE window, at relative offset `off`. -/
  | portWrite (dev : PortDevice) (off : Nat) (b : Byte)
  /-- `PICR`, `ELCRR`, or a byte read in the XTIDE window. -/
  | portRead (dev : PortDevice) (off : Nat)
  /-- `LINE p.n, a`. -/
  | line (p : Nat) (n : Fin 8) (a : Bool)
  /-- `INTA p`. -/
  | inta (p : Nat)
  | picInit (p : Nat) (i1 i2 i3 i4 : Byte)
  | eoi (p : Nat)
  | seoi (p : Nat) (n : Fin 8)
  | poll (p : Nat)
  | mask (p : Nat) (m : Byte)
  | splitWrite (h : Handler) (a sz : Nat) (v : Quad) (w : Nat)
  | splitRead (h : Handler) (a sz w : Nat)
  /-- `REG`. -/
  | reg (sp : Space) (base limit : Nat) (h : Handler) (off : Nat)
  | release (k : Nat) (op : HandleOp)
  /-- `UNREG`. -/
  | unreg (sp : Space) (r : AddressRange)
  | resolve (sp : Space) (a : Nat)
  /-- `IN`, `INW`. -/
  | busRead (sp : Space) (a sz : Nat)
  /-- `OUT`, `OUTW`. -/
  | busWrite (sp : Space) (a sz : Nat) (v : Quad)
  | establishMappings (sp : Space) (engine base limit : Nat)
  | removeMappings (sp : Space)
  /-- `ATAW d.i, v`. -/
  | ataWrite (d : Drive) (i : Nat) (v : Half)
  /-- `ATAR d.i`. -/
  | ataRead (d : Drive) (i : Nat)
  /-- `ATAC d, v` is index 6 of the control block (R111). -/
  | controlWrite (d : Drive) (i : Nat) (v : Half)
  | controlRead (d : Drive) (i : Nat)
  /-- `executeCommand` for an opcode, with its completion (R211, R232). -/
  | command (d : Drive) (opcode : Byte)
  /-- `WORKER d`. -/
  | worker (d : Drive)
  | muxWrite (i : Nat) (v : Half)
  | muxRead (i : Nat)
  | muxControlWrite (b : Byte)
  | muxControlRead
  | muxNotify (d : Drive)
  /-- `nbits` bits that carry no port and no direction: only the match and mask of the opcode table read them. -/
  | bare (nbits w : Nat)
  /-- The word write of the splitting utility at word `x` of host block `m`, of word size `w` (R132); no row of the
  table. -/
  | wordWrite (m w x : Nat) (mask data : Quad)
  /-- The word read of the splitting utility at word `x` of host block `m` (R133); no row of the table. -/
  | wordRead (m w x : Nat) (mask : Quad)
  /-- Destruction of a device by the configuration host (R45); no row of the table. -/
  | teardown (d : Drive)
  /-- The join of a device's worker, the end of its destruction (R45, R236); no row of the table. -/
  | join (d : Drive)
  /-- Construction of an ATA device in the place of a destroyed one (R7 d, R55); no row of the table. -/
  | constructDevice (d : Drive)
  /-- Construction of a PIC, chained on a line of another PIC or an outermost one (R7 d, R54); no row of the table. -/
  | constructPic (wire : Option LineRef)
  /-- Construction of a handler with a host-memory backing (R7 d, R71); no row of the table. -/
  | constructMemory (size permissions word : Nat)
deriving DecidableEq, Repr

/-- The sequencing state that decoding reads (R50, R90): of the addressed PIC its FSM state, the trigger mode of the
line and what an acknowledge finds; of the addressed ATA device BUSY and the transfer state; of its worker the enabled
step; of the XTIDE window what the offset is mapped to; of the addressed space the number of its address bits (R61). -/
structure Ctx where
  fsm : PicFsm := .idle
  level : Bool := false
  ack : AckKind := .nothing
  busy : Bool := false
  xfer : Xfer := .idle
  worker : Option WorkerKind := none
  xt : XtPort := .unmapped
  addrBits : Nat := 64
deriving DecidableEq, Repr

/-- Why an event is no row of the table. -/
inductive Reject where
  /-- an access width other than 1, 2, 4, 8 (R66). -/
  | sizeNotAllowed
  /-- a word size the handler does not use (R130). -/
  | wordSizeNotAllowed
  /-- an address outside its space, or with `address + 8` above 64 bits (R61). -/
  | addressTooLarge
  /-- a datum wider than the access or the register (R66, R139). -/
  | dataTooWide
  /-- a handshake whose first byte lacks the ICW1 marker (R126). -/
  | notAnIcw1
  /-- bits that are not the one byte of a format (R90: every format is one byte long). -/
  | notOneByte
  /-- a worker with no step enabled (R230). -/
  | workerBlocked
  /-- an event the opcode table has no row for. -/
  | noRow
deriving DecidableEq, Repr

/-- The answer of the decoder. -/
inductive Decoded where
  | row (i : Instr)
  | rejected (r : Reject)
deriving DecidableEq, Repr

/-- OCW2 by its bits `R SL EOI` (R101). -/
def decodeOcw2 (p : Nat) (b : Byte) : Instr :=
  if b &&& 0x80 ≠ 0 then .ocw2Rotate p b
  else if b &&& 0x60 = 0x20 then .ocw2Eoi p b
  else if b &&& 0x60 = 0x60 then .ocw2Seoi p b
  else if b &&& 0x60 = 0x40 then .ocw2NopSl p b
  else .ocw2Nop0 p b

/-- OCW3 by its bits SMM and POLL (R102, R170). -/
def decodeOcw3 (p : Nat) (b : Byte) : Instr :=
  if b &&& 0x20 ≠ 0 then .ocw3Smm p b
  else if b &&& 0x04 ≠ 0 then .ocw3Poll p b
  else .ocw3 p b

/-- A command-port write (R92, first three rows of R94): the ICW1 marker first, then the state, then the OCW3 marker. -/
def decodePicCommand (f : PicFsm) (p : Nat) (b : Byte) : Instr :=
  if b &&& 0x10 ≠ 0 then .icw1 p b
  else if f ≠ .idle then .picCmdWriteUnspec p b
  else if b &&& 0x08 ≠ 0 then decodeOcw3 p b
  else decodeOcw2 p b

/-- A data-port write (R93). -/
def decodePicData (f : PicFsm) (p : Nat) (b : Byte) : Instr :=
  match f with
  | .idle => .ocw1 p b
  | .waitingForIcw2 => .icw2 p b
  | .waitingForIcw3 => .icw3 p b
  | .waitingForIcw4 => .icw4 p b
  | .poll => .picDataWriteUnspec p b

/-- A byte write at a port device (R91, R106, R123, R161, R176, R280). -/
def decodePortWrite (c : Ctx) (dev : PortDevice) (off : Nat) (b : Byte) : Instr :=
  match dev with
  | .pic p =>
    if off = 0 then decodePicCommand c.fsm p b
    else if off = 1 then decodePicData c.fsm p b
    else .picBadPort (.pic p) off (.write b)
  | .elcr p => if off = 0 then .elcrWrite p b else .picBadPort (.elcr p) off (.write b)
  | .xtide =>
    match c.xt with
    | .commandBlock i => if i = 0 then .xtDataLowW off b else .xtReg off (.write b)
    | .controlBlock => .xtControl off (.write b)
    | .dataHigh => .xtDataHighW off b
    | .unmapped => .xtUnmapped off (.write b)

/-- A byte read at a port device (R94, R123, R161, R177, R280). -/
def decodePortRead (c : Ctx) (dev : PortDevice) (off : Nat) : Instr :=
  match dev with
  | .pic p =>
    if off = 0 then (if c.fsm = .poll then .picCmdReadUnspec p else .irrIsrRead p)
    else if off = 1 then (if c.fsm = .poll then .pollRead p else .maskRead p)
    else .picBadPort (.pic p) off .read
  | .elcr p => if off = 0 then .elcrRead p else .picBadPort (.elcr p) off .read
  | .xtide =>
    match c.xt with
    | .commandBlock i => if i = 0 then .xtDataLowR off else .xtReg off .read
    | .controlBlock => .xtControl off .read
    | .dataHigh => .xtDataHighR off
    | .unmapped => .xtUnmapped off .read

/-- A command-block write of one byte at index 1 to 7 of an ATA device (R110, R213). -/
def decodeAtaRegisterWrite (c : Ctx) (d : Drive) (i : Nat) (b : Byte) : Instr :=
  if i = 7 then .ataCommandW d b
  else if c.busy then .ataGatedW d i b
  else
    match i with
    | 1 => .ataFeatureW d b
    | 2 => .ataSectorCountW d b
    | 3 => .ataSectorNumberW d b
    | 4 => .ataCylinderLowW d b
    | 5 => .ataCylinderHighW d b
    | _ => .ataDriveHeadW d b

/-- A command-block write at an ATA device: bad index, then the data register, then the gate (R213, R217, R227, R228,
R300). -/
def decodeAtaWrite (c : Ctx) (d : Drive) (i : Nat) (v : Half) : Decoded :=
  if 7 < i then .row (.ataBadIndex d .command i (.write v))
  else if i = 0 then .row (if c.xfer = .pioWrite then .ataDataW d v else .ataDataWIdle d v)
  else if v.toNat < 256 then .row (decodeAtaRegisterWrite c d i (v.truncate 8))
  else .rejected .dataTooWide

/-- A command-block read at an ATA device (R217, R219, R221, R226, R228, R220). -/
def decodeAtaRead (c : Ctx) (d : Drive) (i : Nat) : Instr :=
  if 7 < i then .ataBadIndex d .command i .read
  else if i = 7 then .ataStatusR d
  else if c.busy then .ataBusyR d i
  else
    match i with
    | 0 => if c.xfer = .pioRead then .ataDataR d else .ataDataRIdle d
    | 1 => .ataErrorR d
    | 2 => .ataSectorCountR d
    | 3 => .ataSectorNumberR d
    | 4 => .ataCylinderLowR d
    | 5 => .ataCylinderHighR d
    | _ => .ataDriveHeadR d

/-- The opcode table R116, with R118 for every other value. -/
def decodeOpcode (d : Drive) (b : Byte) : Instr :=
  if b = 0x10 then .recalibrate d
  else if b = 0x20 then .readSectors d
  else if b = 0x21 then .readSectorsNoRetry d
  else if b = 0x30 then .writeSectors d
  else if b = 0x31 then .writeSectorsNoRetry d
  else if b = 0x70 then .seek d
  else if b = 0x91 then .initializeDriveParameters d
  else if b = 0xC4 then .readMultiple d
  else if b = 0xC5 then .writeMultiple d
  else if b = 0xC6 then .setMultipleMode d
  else if b = 0xEC then .identifyDrive d
  else if b = 0xEF then .setFeatures d
  else .ataUnknownCommand d b

/-- The worker step that is enabled (R230). -/
def decodeWorker (d : Drive) : Option WorkerKind → Decoded
  | none => .rejected .workerBlocked
  | some .stop => .row (.workerStop d)
  | some .reset => .row (.workerReset d)
  | some .command => .row (.workerCommand d)
  | some .continueRead => .row (.workerContinueRead d)
  | some .continueWrite => .row (.workerContinueWrite d)

/-- The row whose match and mask in the opcode table fit one byte without a port. Rows of different ports overlap there
(0x20 is OCW2_EOI and READ_SECTORS); the row that fixes more bits is taken, so an ATA opcode (mask 0xFF) goes before a PIC
command-port byte in `Idle`. DESIGN CHOICE, notes/assumptions/2.md: the spec gives a byte no meaning without its port. -/
def decodeBareByte (b : Byte) : Instr :=
  if knownOpcode b then decodeOpcode .master b else decodePicCommand .idle 0 b

/-- The instruction the decoder reads from `nbits` bits of value `w`, numbered as spec/opcode_table.json numbers them. -/
def decodeTableWord (nbits w : Nat) : Option Instr :=
  if nbits = 8 ∧ w < 256 then some (decodeBareByte (BitVec.ofNat 8 w)) else none

/-- An operand that is an address of a space (R61). -/
def addressIn (bits a : Nat) : Bool := addressOk a && inSpace bits a

/-- An operand that ends an interval of a space (R34, R61). -/
def limitIn (bits limit : Nat) : Bool := addressOk limit && endsInSpace bits limit

/-- A row, or a rejection by name where an operand is none the contract allows. -/
def checked (ok : Bool) (r : Reject) (next : Decoded) : Decoded := if ok then next else .rejected r

/-- The decoder: total on every event, in every sequencing state. -/
def decode (c : Ctx) : Event → Decoded
  | .portWrite dev off b => .row (decodePortWrite c dev off b)
  | .portRead dev off => .row (decodePortRead c dev off)
  | .line p n a => .row (if c.level then .lineLevel p n a else .lineEdge p n a)
  | .inta p =>
    .row (match c.ack with
      | .nothing => .intaSpurious p
      | .own => .inta p
      | .cascade => .intaCascade p)
  | .picInit p i1 i2 i3 i4 => checked (i1 &&& 0x10 != 0) .notAnIcw1 (.row (.picInit p i1 i2 i3 i4))
  | .eoi p => .row (.eoi p)
  | .seoi p n => .row (.seoi p n)
  | .poll p => .row (.poll p)
  | .mask p m => .row (.mask p m)
  | .splitWrite h a sz v w =>
    checked (sizeOk sz) .sizeNotAllowed (checked (wordOk h w) .wordSizeNotAllowed
      (checked (dataOk sz v) .dataTooWide (.row (.splitWrite h a sz v w))))
  | .splitRead h a sz w =>
    checked (sizeOk sz) .sizeNotAllowed (checked (wordOk h w) .wordSizeNotAllowed
      (.row (.splitRead h a sz w)))
  | .reg sp base limit h off =>
    checked (addressIn c.addrBits base && limitIn c.addrBits limit && addressOk off) .addressTooLarge
      (.row (.reg sp base limit h off))
  | .release k op => .row (.release k op)
  | .unreg sp r => .row (.unreg sp r)
  | .resolve sp a => checked (addressIn c.addrBits a) .addressTooLarge (.row (.resolve sp a))
  | .busRead sp a sz =>
    checked (sizeOk sz) .sizeNotAllowed (checked (addressIn c.addrBits a) .addressTooLarge (.row (.inPort sp a sz)))
  | .busWrite sp a sz v =>
    checked (sizeOk sz) .sizeNotAllowed (checked (addressIn c.addrBits a) .addressTooLarge
      (checked (dataOk sz v) .dataTooWide (.row (.outPort sp a sz v))))
  | .establishMappings sp engine base limit =>
    checked (addressIn c.addrBits base && limitIn c.addrBits limit) .addressTooLarge
      (.row (.establishMappings sp engine base limit))
  | .removeMappings sp => .row (.removeMappings sp)
  | .ataWrite d i v => decodeAtaWrite c d i v
  | .ataRead d i => .row (decodeAtaRead c d i)
  | .controlWrite d i v =>
    if i = 6 then checked (decide (v.toNat < 256)) .dataTooWide (.row (.ataDeviceControlW d (v.truncate 8)))
    else .row (.ataBadIndex d .control i (.write v))
  | .controlRead d i => .row (if i = 6 then .ataAltStatusR d else .ataBadIndex d .control i .read)
  | .command d b => .row (decodeOpcode d b)
  | .worker d => decodeWorker d c.worker
  | .muxWrite i v =>
    checked (accessFits i (.write v)) .dataTooWide
      (.row (if i = 6 then .muxDriveHeadW (v.truncate 8) else .muxForward i (.write v)))
  | .muxRead i => .row (.muxForward i .read)
  | .muxControlWrite b => .row (.muxDeviceControlW b)
  | .muxControlRead => .row .muxAltStatusR
  | .muxNotify d => .row (.muxNotify d)
  | .bare nbits w =>
    match decodeTableWord nbits w with
    | some i => .row i
    | none => .rejected .notOneByte
  | .wordWrite _ _ _ _ _ => .rejected .noRow
  | .wordRead _ _ _ _ => .rejected .noRow
  | .teardown _ => .rejected .noRow
  | .join _ => .rejected .noRow
  | .constructDevice _ => .rejected .noRow
  | .constructPic _ => .rejected .noRow
  | .constructMemory _ _ _ => .rejected .noRow

/-- A byte on the 16-bit ATA bus. -/
def byteOnBus (b : Byte) : Half := b.zeroExtend 16

/-- The event of a row: the port, direction and byte that the spec's tables give it, or the call with its arguments. -/
def encode : Instr → Event
  | .icw1 p b => .portWrite (.pic p) 0 b
  | .ocw2Eoi p b => .portWrite (.pic p) 0 b
  | .ocw2Seoi p b => .portWrite (.pic p) 0 b
  | .ocw2NopSl p b => .portWrite (.pic p) 0 b
  | .ocw2Nop0 p b => .portWrite (.pic p) 0 b
  | .ocw2Rotate p b => .portWrite (.pic p) 0 b
  | .ocw3 p b => .portWrite (.pic p) 0 b
  | .ocw3Poll p b => .portWrite (.pic p) 0 b
  | .ocw3Smm p b => .portWrite (.pic p) 0 b
  | .picCmdWriteUnspec p b => .portWrite (.pic p) 0 b
  | .icw2 p b => .portWrite (.pic p) 1 b
  | .icw3 p b => .portWrite (.pic p) 1 b
  | .icw4 p b => .portWrite (.pic p) 1 b
  | .ocw1 p b => .portWrite (.pic p) 1 b
  | .picDataWriteUnspec p b => .portWrite (.pic p) 1 b
  | .pollRead p => .portRead (.pic p) 1
  | .maskRead p => .portRead (.pic p) 1
  | .irrIsrRead p => .portRead (.pic p) 0
  | .picCmdReadUnspec p => .portRead (.pic p) 0
  | .picBadPort dev off (.write b) => .portWrite dev off b
  | .picBadPort dev off .read => .portRead dev off
  | .elcrWrite p b => .portWrite (.elcr p) 0 b
  | .elcrRead p => .portRead (.elcr p) 0
  | .lineLevel p n a => .line p n a
  | .lineEdge p n a => .line p n a
  | .inta p => .inta p
  | .intaSpurious p => .inta p
  | .intaCascade p => .inta p
  | .picInit p i1 i2 i3 i4 => .picInit p i1 i2 i3 i4
  | .eoi p => .eoi p
  | .seoi p n => .seoi p n
  | .poll p => .poll p
  | .mask p m => .mask p m
  | .splitWrite h a sz v w => .splitWrite h a sz v w
  | .splitRead h a sz w => .splitRead h a sz w
  | .reg sp base limit h off => .reg sp base limit h off
  | .release k op => .release k op
  | .unreg sp r => .unreg sp r
  | .resolve sp a => .resolve sp a
  | .inPort sp a sz => .busRead sp a sz
  | .outPort sp a sz v => .busWrite sp a sz v
  | .establishMappings sp engine base limit => .establishMappings sp engine base limit
  | .removeMappings sp => .removeMappings sp
  | .ataFeatureW d b => .ataWrite d 1 (byteOnBus b)
  | .ataSectorCountW d b => .ataWrite d 2 (byteOnBus b)
  | .ataSectorNumberW d b => .ataWrite d 3 (byteOnBus b)
  | .ataCylinderLowW d b => .ataWrite d 4 (byteOnBus b)
  | .ataCylinderHighW d b => .ataWrite d 5 (byteOnBus b)
  | .ataDriveHeadW d b => .ataWrite d 6 (byteOnBus b)
  | .ataGatedW d i b => .ataWrite d i (byteOnBus b)
  | .ataCommandW d b => .ataWrite d 7 (byteOnBus b)
  | .ataDataW d v => .ataWrite d 0 v
  | .ataDataWIdle d v => .ataWrite d 0 v
  | .ataDataR d => .ataRead d 0
  | .ataDataRIdle d => .ataRead d 0
  | .ataErrorR d => .ataRead d 1
  | .ataSectorCountR d => .ataRead d 2
  | .ataSectorNumberR d => .ataRead d 3
  | .ataCylinderLowR d => .ataRead d 4
  | .ataCylinderHighR d => .ataRead d 5
  | .ataDriveHeadR d => .ataRead d 6
  | .ataStatusR d => .ataRead d 7
  | .ataBusyR d i => .ataRead d i
  | .ataBadIndex d .command i (.write v) => .ataWrite d i v
  | .ataBadIndex d .command i .read => .ataRead d i
  | .ataBadIndex d .control i (.write v) => .controlWrite d i v
  | .ataBadIndex d .control i .read => .controlRead d i
  | .ataAltStatusR d => .controlRead d 6
  | .ataDeviceControlW d b => .controlWrite d 6 (byteOnBus b)
  | .recalibrate d => .command d 0x10
  | .readSectors d => .command d 0x20
  | .readSectorsNoRetry d => .command d 0x21
  | .writeSectors d => .command d 0x30
  | .writeSectorsNoRetry d => .command d 0x31
  | .seek d => .command d 0x70
  | .initializeDriveParameters d => .command d 0x91
  | .readMultiple d => .command d 0xC4
  | .writeMultiple d => .command d 0xC5
  | .setMultipleMode d => .command d 0xC6
  | .identifyDrive d => .command d 0xEC
  | .setFeatures d => .command d 0xEF
  | .ataUnknownCommand d opcode => .command d opcode
  | .workerStop d => .worker d
  | .workerReset d => .worker d
  | .workerCommand d => .worker d
  | .workerContinueRead d => .worker d
  | .workerContinueWrite d => .worker d
  | .muxForward i (.write v) => .muxWrite i v
  | .muxForward i .read => .muxRead i
  | .muxDriveHeadW b => .muxWrite 6 (byteOnBus b)
  | .muxDeviceControlW b => .muxControlWrite b
  | .muxAltStatusR => .muxControlRead
  | .muxNotify d => .muxNotify d
  | .xtDataLowR o => .portRead .xtide o
  | .xtDataHighR o => .portRead .xtide o
  | .xtDataHighW o b => .portWrite .xtide o b
  | .xtDataLowW o b => .portWrite .xtide o b
  | .xtReg o (.write b) => .portWrite .xtide o b
  | .xtReg o .read => .portRead .xtide o
  | .xtControl o (.write b) => .portWrite .xtide o b
  | .xtControl o .read => .portRead .xtide o
  | .xtUnmapped o (.write b) => .portWrite .xtide o b
  | .xtUnmapped o .read => .portRead .xtide o

/-- The offset is mapped to a register of the command block other than the data register (R285). -/
def XtPort.isRegister : XtPort → Bool
  | .commandBlock i => i != 0
  | .controlBlock => false
  | .dataHigh => false
  | .unmapped => false

/-- The sequencing states in which an event of the row is that row: the `states` and `condition` columns of the opcode
table (R94, R213 to R228, R230, R280 to R287), and for a row with addresses the widths of space that have them (R61). -/
def Instr.appliesIn (i : Instr) (c : Ctx) : Bool :=
  match i with
  | .icw1 _ _ => true
  | .ocw2Eoi _ _ => c.fsm == .idle
  | .ocw2Seoi _ _ => c.fsm == .idle
  | .ocw2NopSl _ _ => c.fsm == .idle
  | .ocw2Nop0 _ _ => c.fsm == .idle
  | .ocw2Rotate _ _ => c.fsm == .idle
  | .ocw3 _ _ => c.fsm == .idle
  | .ocw3Poll _ _ => c.fsm == .idle
  | .ocw3Smm _ _ => c.fsm == .idle
  | .picCmdWriteUnspec _ _ => c.fsm != .idle
  | .icw2 _ _ => c.fsm == .waitingForIcw2
  | .icw3 _ _ => c.fsm == .waitingForIcw3
  | .icw4 _ _ => c.fsm == .waitingForIcw4
  | .ocw1 _ _ => c.fsm == .idle
  | .picDataWriteUnspec _ _ => c.fsm == .poll
  | .pollRead _ => c.fsm == .poll
  | .maskRead _ => c.fsm != .poll
  | .irrIsrRead _ => c.fsm != .poll
  | .picCmdReadUnspec _ => c.fsm == .poll
  | .picBadPort _ _ _ => true
  | .elcrWrite _ _ => true
  | .elcrRead _ => true
  | .lineLevel _ _ _ => c.level
  | .lineEdge _ _ _ => !c.level
  | .inta _ => c.ack == .own
  | .intaSpurious _ => c.ack == .nothing
  | .intaCascade _ => c.ack == .cascade
  | .picInit _ _ _ _ _ => true
  | .eoi _ => true
  | .seoi _ _ => true
  | .poll _ => true
  | .mask _ _ => true
  | .splitWrite _ _ _ _ _ => true
  | .splitRead _ _ _ _ => true
  | .reg _ base limit _ _ => inSpace c.addrBits base && endsInSpace c.addrBits limit
  | .release _ _ => true
  | .unreg _ _ => true
  | .resolve _ a => inSpace c.addrBits a
  | .inPort _ a _ => inSpace c.addrBits a
  | .outPort _ a _ _ => inSpace c.addrBits a
  | .establishMappings _ _ base limit => inSpace c.addrBits base && endsInSpace c.addrBits limit
  | .removeMappings _ => true
  | .ataFeatureW _ _ => !c.busy
  | .ataSectorCountW _ _ => !c.busy
  | .ataSectorNumberW _ _ => !c.busy
  | .ataCylinderLowW _ _ => !c.busy
  | .ataCylinderHighW _ _ => !c.busy
  | .ataDriveHeadW _ _ => !c.busy
  | .ataGatedW _ _ _ => c.busy
  | .ataCommandW _ _ => true
  | .ataDataW _ _ => c.xfer == .pioWrite
  | .ataDataWIdle _ _ => c.xfer != .pioWrite
  | .ataDataR _ => !c.busy && c.xfer == .pioRead
  | .ataDataRIdle _ => !c.busy && c.xfer != .pioRead
  | .ataErrorR _ => !c.busy
  | .ataSectorCountR _ => !c.busy
  | .ataSectorNumberR _ => !c.busy
  | .ataCylinderLowR _ => !c.busy
  | .ataCylinderHighR _ => !c.busy
  | .ataDriveHeadR _ => !c.busy
  | .ataStatusR _ => true
  | .ataBusyR _ _ => c.busy
  | .ataBadIndex _ _ _ _ => true
  | .ataAltStatusR _ => true
  | .ataDeviceControlW _ _ => true
  | .recalibrate _ => true
  | .readSectors _ => true
  | .readSectorsNoRetry _ => true
  | .writeSectors _ => true
  | .writeSectorsNoRetry _ => true
  | .seek _ => true
  | .initializeDriveParameters _ => true
  | .readMultiple _ => true
  | .writeMultiple _ => true
  | .setMultipleMode _ => true
  | .identifyDrive _ => true
  | .setFeatures _ => true
  | .ataUnknownCommand _ _ => true
  | .workerStop _ => c.worker == some .stop
  | .workerReset _ => c.worker == some .reset
  | .workerCommand _ => c.worker == some .command
  | .workerContinueRead _ => c.worker == some .continueRead
  | .workerContinueWrite _ => c.worker == some .continueWrite
  | .muxForward _ _ => true
  | .muxDriveHeadW _ => true
  | .muxDeviceControlW _ => true
  | .muxAltStatusR => true
  | .muxNotify _ => true
  | .xtDataLowR _ => c.xt == .commandBlock 0
  | .xtDataHighR _ => c.xt == .dataHigh
  | .xtDataHighW _ _ => c.xt == .dataHigh
  | .xtDataLowW _ _ => c.xt == .commandBlock 0
  | .xtReg _ _ => c.xt.isRegister
  | .xtControl _ _ => c.xt == .controlBlock
  | .xtUnmapped _ _ => c.xt == .unmapped

end Sys2Proof
end

