-- ==== Sys2Proof/Machine/State.lean ====
section
/-! DEFINITION. The state of the block as plain data (spec/10_state.md R20 to R48), the reasons a step can stop
(spec/60_exceptions.md R291), and the state after construction, the block's only full reset (R54 to R56, R330). -/
namespace Sys2Proof.Machine

/-- A sparse memory: (address, byte) pairs, addresses strictly rising (`Memory.wf` in Sys2Proof/Machine/Memory.lean). -/
abbrev Memory := List Host.Cell

/-- One PIC (R20). -/
structure Pic where
  /-- `pic.state` (R21). -/
  fsm : PicFsm
  icw1 : Byte
  icw2 : Byte
  icw3 : Byte
  icw4 : Byte
  /-- The interrupt mask, IMR (R23). -/
  ocw1 : Byte
  ocw3 : Byte
  irr : Byte
  isr : Byte
  /-- The edge-sense latch: the level of each line as last reported (R27). -/
  edge : Byte
  /-- The register of the ELCR sub-device (R29). -/
  elcr : Byte
  /-- The PIC whose output drives each line, or null (R28). -/
  secondary : Vector (Option Nat) 8
  /-- The level of the PIC's own output line (R30). -/
  out : Bool
deriving DecidableEq, Repr

/-- The engine a dispatcher is bound to, with the `base` and `limit` of `establishMappings` (R36). -/
structure EngineBinding where
  engine : Nat
  base : Nat
  limit : Nat
deriving DecidableEq, Repr

/-- One `mapMemory(base, limit, hostPtr, permissions)` that the engine holds (R140, R142). -/
structure Mapping where
  base : Nat
  limit : Nat
  block : Nat
  permissions : Nat
deriving DecidableEq, Repr

/-- One address-space dispatcher (R34, R36). -/
structure Dispatcher where
  /-- `IO_ADDR_BITS` or `MEM_ADDR_BITS`, the width of the space (R9, R61). -/
  addrBits : Nat
  ranges : List AddressRange
  engine : Option EngineBinding
  mapped : List AddressRange
  engineMap : List Mapping
deriving DecidableEq, Repr

/-- An `AddressRangeRegistration` handle (R37). -/
structure Registration where
  space : Space
  range : AddressRange
  attached : Bool
deriving DecidableEq, Repr

/-- A host-memory handler: `hostMemorySize`, `hostMemoryPermissions` (passed through unread, R72), the register-word size
`W` of its handler (R9, R130) and the bytes of the block (R71). -/
structure HostBlock where
  size : Nat
  permissions : Nat
  word : Nat
  cells : Memory
deriving DecidableEq, Repr

/-- The nine registers of an ATA device (R38); a command record is a snapshot of them (R211). -/
structure RegFile where
  status : Byte
  error : Byte
  feature : Byte
  sectorCount : Byte
  sectorNumber : Byte
  cylinderLow : Byte
  cylinderHigh : Byte
  driveHead : Byte
  command : Byte
deriving DecidableEq, Repr

/-- The in-progress multi-sector operation (R43). -/
structure Operation where
  kind : OpKind
  lba : Nat
  remaining : Nat
  chunk : Nat
deriving DecidableEq, Repr

/-- One ATA device with its worker's mailbox and its backing store (R38 to R45). -/
structure AtaDevice where
  regs : RegFile
  /-- The filled bytes of the transfer buffer, all below its capacity; every other byte is a free value (R39,
  notes/assumptions/8.md, 30.md). -/
  buffer : List Host.Cell
  cursor : Nat
  length : Nat
  xfer : Xfer
  commandRequested : Bool
  resetRequested : Bool
  stopRequested : Bool
  continueRequested : Bool
  /-- The worker has taken `WorkerStop` (R236). -/
  stopped : Bool
  pio8 : Bool
  multipleBlock : Nat
  geometry : Option Geometry
  op : Option Operation
  intrq : Bool
  nIEN : Bool
  disk : DiskParams
  /-- `STORE` (R12). -/
  store : Memory
  /-- The oracle of R237: for each coming access to the backing store, whether the host fails it; beyond the list, none
  fails (notes/assumptions/9.md). -/
  ioFaults : List Bool
deriving DecidableEq, Repr

/-- The demultiplexer (R46). -/
structure Demux where
  selected : Drive
  nIENMaster : Bool
  nIENSlave : Bool
  out : Bool
deriving DecidableEq, Repr

/-- The CPU engine's interrupt-line sink: the level it was last told and how many times it was told (R48, R180). The
count is the model's own (notes/assumptions/13.md). -/
structure Sink where
  level : Bool
  notices : Nat
deriving DecidableEq, Repr

/-- A logged message (R293). -/
inductive Diagnostic where
  /-- Dispatcher access at an address in no range (R138, R139). -/
  | unresolvedAddress
  /-- PIC access at an offset other than 0 or 1 (R161). -/
  | picBadPort
  /-- Command-block write at index 1 to 6 while BUSY (R213). -/
  | ataBusy
  /-- Access outside the command-block layout (R217, R287). -/
  | ataBadRegister
  /-- Data access outside an active PIO cycle of that direction (R228). -/
  | ataNoTransfer
deriving DecidableEq, Repr

/-- The result of a resolution (R137). -/
inductive Route where
  | to (h : Handler) (off : Nat)
  | unresolved
deriving DecidableEq, Repr

/-- What an operation has returned so far to the agent that issued it (R16): the bytes of its result, lowest first, the
diagnostics it logged, the number of the handle or device it was given, the route of a resolution. The model's own record
of outcomes; no rule reads it (notes/assumptions/10.md). -/
structure Reply where
  bytes : List Byte := []
  diagnostics : List Diagnostic := []
  handle : Option Nat := none
  route : Option Route := none
deriving DecidableEq, Repr

/-- One agent: what is left of the operation it is in the middle of (R67, R74, R76), the operations it has still to
issue, and the reply to the operation under way (notes/assumptions/1.md). -/
structure Thread where
  follow : List Event := []
  program : List Event := []
  reply : Reply := {}
deriving DecidableEq, Repr

/-- The state of the block, and of the agents that act on it. -/
structure State where
  pics : List Pic
  io : Dispatcher
  mem : Dispatcher
  registrations : List Registration
  hostBlocks : List HostBlock
  master : AtaDevice
  slave : AtaDevice
  mux : Demux
  /-- `xt.latch` (R47). -/
  latch : Half
  /-- `XTIDE_MAP`: the offsets that are mapped to a register (R123). -/
  xtMap : List (Nat × XtPort)
  /-- `LINE_WIRING` (R9). -/
  wiring : Wiring
  sink : Sink
  threads : List (Agent × Thread)
  /-- The agent whose step is being taken. -/
  active : Agent
  /-- The agents that take the coming steps, as far as that is settled (notes/assumptions/3.md). -/
  schedule : List Agent
  /-- The number of steps taken; read only by the free scheduling choice. -/
  clock : Nat
deriving DecidableEq, Repr

/-- Why the run ends: exactly the `Fault` rows of R291. The state at a fault is no state of the machine (R292). -/
inductive Fault where
  /-- `registerAddressRange` of a range that overlaps a live one (R134). Safe: the spec says the emulator aborts. -/
  | configurationConflict
  /-- OCW2 with the rotate bit, or OCW3 with the special-mask bit, in `Idle` (R170, R171). Safe: the spec says the
  assertion trips. -/
  | picUnimplementedMode
  /-- A backing-store access by the worker that fails or is short (R237). Safe: the spec says it is fatal. -/
  | hostIoFailure
deriving DecidableEq, Repr

/-- What an operand names that is not there. -/
inductive Absent where
  | pic (p : Nat)
  | hostBlock (m : Nat)
  | registration (k : Nat)
deriving DecidableEq, Repr

/-- What keeps the configuration host from constructing a device (notes/assumptions/31.md). -/
inductive NotConstructible where
  /-- the device that stands there has not been destroyed (R45) -/
  | deviceAlive (d : Drive)
  /-- the line has a secondary PIC already (R28) -/
  | lineTaken (l : LineRef)
  /-- a host memory of no bytes (R71, R127) or a word size that no handler uses (R130) -/
  | memoryShape (size word : Nat)
deriving DecidableEq, Repr

/-- Why an operation has no meaning here: the `Refused` rows of R291, and the model's own. -/
inductive Refusal where
  /-- An instruction whose meaning is not written yet. Safe. -/
  | notModelled (mnemonic : String)
  /-- A PIC access the source gives no meaning in this state (R172). Safe: the spec refuses it. -/
  | picUnspecified (port : PicPort) (direction : Direction) (state : PicFsm)
  /-- A command write with BUSY set (R218). Safe: the spec refuses it. -/
  | ataCommandWhileBusy
  /-- `registerAddressRange` with `base >= limit` (R134). Safe: the spec refuses it. -/
  | emptyRange
  /-- `establishMappings` with an engine attached (R140). Safe: the spec refuses it. -/
  | engineAlreadyAttached
  /-- An operation on a PIC, a host block or a handle that does not exist: the contract's argument types exclude it (U10,
  R336, notes/assumptions/16.md). Safe: nothing is claimed. -/
  | absentDevice (what : Absent)
  /-- A construction whose place is taken, or of a memory that no handler can have (notes/assumptions/31.md). Safe: nothing
  is claimed. -/
  | notConstructible (why : NotConstructible)
  /-- The step met an event that is no row of the opcode table (notes/assumptions/29.md). Safe: nothing is claimed. -/
  | undecodable (r : Reject)
deriving DecidableEq, Repr

/-- The outcome of an operation. -/
abbrev Result := Host.Outcome State Fault Refusal

/-- The command-result constants of R55: `DRDY | DSC` and the diagnostic-success code. -/
def RegFile.powerUp : RegFile :=
  { status := 0x50, error := 0x01, feature := 0x00, sectorCount := 0x01, sectorNumber := 0x01, cylinderLow := 0x00,
    cylinderHigh := 0x00, driveHead := 0x00, command := 0x00 }

/-- A PIC after construction (R54), with its cascade as wired. -/
def Pic.constructed (secondary : Vector (Option Nat) 8) : Pic :=
  { fsm := .idle, icw1 := 0x00, icw2 := 0x00, icw3 := 0x00, icw4 := 0x00, ocw1 := 0x00, ocw3 := 0x00, irr := 0x00,
    isr := 0x00, edge := 0x00, elcr := 0x00, secondary := secondary, out := false }

/-- The dispatcher of a space of `addrBits` address bits after construction (R34, R36). -/
def Dispatcher.constructed (addrBits : Nat) : Dispatcher :=
  { addrBits := addrBits, ranges := [], engine := none, mapped := [], engineMap := [] }

/-- An ATA device after construction (R39, R41 to R44, R55). -/
def AtaDevice.constructed (disk : DiskParams) : AtaDevice :=
  { regs := RegFile.powerUp, buffer := [], cursor := 0, length := 0, xfer := .idle, commandRequested := false,
    resetRequested := false, stopRequested := false, continueRequested := false, stopped := false, pio8 := false,
    multipleBlock := 0, geometry := none, op := none, intrq := false, nIEN := false, disk := disk, store := [],
    ioFaults := [] }

/-- The secondary table of a PIC with nothing chained on it (R28). -/
def noSecondaries : Vector (Option Nat) 8 := #v[none, none, none, none, none, none, none, none]

/-- A host-memory handler after construction: nothing written yet (R71, notes/assumptions/7.md). -/
def HostBlock.constructed (size permissions word : Nat) : HostBlock :=
  { size := size, permissions := permissions, word := word, cells := [] }

/-- The machine right after construction (R330): R54 for the PICs, R55 for the ATA devices, R56 for the rest. The
parameters of R9 to R12 have the example values of spec/95_test_vectors.md (DESIGN CHOICE, unsafe,
notes/assumptions/5.md); the XTIDE latch, unspecified by R47, is 0 (DESIGN CHOICE, unsafe, notes/assumptions/6.md). No
agent has anything to do. -/
def State.reset : State :=
  { pics := [Pic.constructed #v[none, none, some 1, none, none, none, none, none],
             Pic.constructed noSecondaries],
    io := Dispatcher.constructed 64, mem := Dispatcher.constructed 64, registrations := [],
    hostBlocks := [HostBlock.constructed 65536 0 1],
    master := AtaDevice.constructed Config.exampleDisk, slave := AtaDevice.constructed Config.exampleDisk,
    mux := { selected := .master, nIENMaster := false, nIENSlave := false, out := false }, latch := 0x0000,
    xtMap := Config.exampleXtideMap,
    wiring := { muxLine := some { pic := 0, line := 5 }, pitLine := none },
    sink := { level := false, notices := 0 }, threads := [], active := .engine 0, schedule := [], clock := 0 }

end Sys2Proof.Machine
end

