-- ==== Sys2Proof/Machine/Memory.lean ====
section
/-! DEFINITION. The byte memories of the block: host-memory blocks (spec/20_memory.md R71), the backing stores
(spec/00_scope.md R12) and the transfer buffers (spec/10_state.md R39). All three are lists of cells with rising
addresses; they differ in what an unlisted address reads as. -/
namespace Sys2Proof.Machine

/-- What an unlisted byte of a host block or of a backing store reads as (DESIGN CHOICE, unsafe:
notes/assumptions/7.md). -/
def Memory.blank : Byte := 0x00

/-- The listed byte at an address. -/
def findCell : List Host.Cell → Nat → Option Byte
  | [], _ => none
  | (k, b) :: t, a => if k = a then some b else findCell t a

/-- Consecutive bytes from address `a` on, as cells. -/
def cellsAt (a : Nat) : List Byte → List Host.Cell
  | [] => []
  | b :: t => (a, b) :: cellsAt (a + 1) t

/-- The cells below `lo` or from `hi` on, with `new` between them. -/
def replaceCells (m : List Host.Cell) (lo hi : Nat) (new : List Host.Cell) : List Host.Cell :=
  m.filter (fun c => decide (c.1 < lo)) ++ (new ++ m.filter (fun c => decide (hi ≤ c.1)))

/-- The byte of a memory at an address. -/
def Memory.read (m : Memory) (a : Nat) : Byte := (findCell m a).getD Memory.blank

/-- Store consecutive bytes from address `a` on; a byte equal to the blank is not listed. -/
def Memory.writeBytes (m : Memory) (a : Nat) (bytes : List Byte) : Memory :=
  replaceCells m a (a + bytes.length) ((cellsAt a bytes).filter (fun c => c.2 != Memory.blank))

/-- Store one byte. -/
def Memory.write (m : Memory) (a : Nat) (b : Byte) : Memory := Memory.writeBytes m a [b]

/-- `n` consecutive bytes from address `a` on. -/
def Memory.readBytes (m : Memory) (a : Nat) : Nat → List Byte
  | 0 => []
  | n + 1 => Memory.read m a :: Memory.readBytes m (a + 1) n

/-- Addresses strictly rise. -/
abbrev risingCells (m : List Host.Cell) : Prop := m.Pairwise (fun x y => x.1 < y.1)

/-- The canonical form: addresses strictly rise and no entry equals what an unlisted address reads as. -/
abbrev Memory.wf (m : Memory) : Prop := risingCells m ∧ ∀ c ∈ m, c.2 ≠ Memory.blank

/-- The capacity of a transfer buffer in bytes: 128 KiB (R39, notes/assumptions/30.md). -/
def bufferCapacity : Nat := 131072

/-- A byte of the transfer buffer of device `d`: what was put there, and a free value where nothing was (R39). -/
def bufferByte (d : Drive) (buf : List Host.Cell) (i : Nat) : Byte :=
  (findCell buf i).getD (Config.unfilledBuffer d i)

/-- The bytes of a run from position `i` on that a transfer buffer has room for. -/
def bufferKept (i : Nat) (bytes : List Byte) : List Byte := bytes.take (bufferCapacity - i)

/-- Put consecutive bytes into the transfer buffer; positions beyond its capacity do not exist (R39). -/
def bufferPut (buf : List Host.Cell) (i : Nat) (bytes : List Byte) : List Host.Cell :=
  replaceCells buf i (i + (bufferKept i bytes).length) (cellsAt i (bufferKept i bytes))

/-- `n` consecutive bytes of the transfer buffer of device `d`. -/
def bufferBytes (d : Drive) (buf : List Host.Cell) (i : Nat) : Nat → List Byte
  | 0 => []
  | n + 1 => bufferByte d buf i :: bufferBytes d buf (i + 1) n

end Sys2Proof.Machine
end

