-- ==== Sys2Proof/Machine/Flags.lean ====
section
/-! DEFINITION. The bits of the control and status words (spec/30_encoding.md R96 to R115) and the flag computations: the
PIC's unserviced set, trigger mode, selection and output level (spec/10_state.md R31 to R33), the ATA status bits, the
merge of a result into the status register (spec/42_ata_device.md R233) and the visible interrupt level (R229). -/
namespace Sys2Proof.Machine

/-- ICW1 LTIM (R96): all lines level-triggered. -/
abbrev icw1Ltim : Byte := 0x08
/-- ICW1 SNGL (R96): no ICW3 follows. -/
abbrev icw1Sngl : Byte := 0x02
/-- ICW1 IC4 (R96): an ICW4 follows. -/
abbrev icw1Ic4 : Byte := 0x01
/-- ICW4 AEOI (R99). -/
abbrev icw4Aeoi : Byte := 0x02
/-- The vector base bits of ICW2 (R97). -/
abbrev icw2BaseMask : Byte := 0xF8
/-- OCW3 special mask mode (R102). -/
abbrev ocw3Smm : Byte := 0x20
/-- OCW3 POLL (R102). -/
abbrev ocw3Poll : Byte := 0x04
/-- OCW3 RR and RIS (R102). -/
abbrev ocw3ReadSelect : Byte := 0x03

/-- The byte with bit `n` alone set (R15). -/
def lineBit (n : Fin 8) : Byte := 1#8 <<< n.val

/-- `r` with bit `n` set to `a`. -/
def setLineBit (r : Byte) (n : Fin 8) (a : Bool) : Byte := if a then r ||| lineBit n else r &&& ~~~lineBit n

/-- The eight lines, in the order of priority (R33). -/
def allLines : List (Fin 8) := [0, 1, 2, 3, 4, 5, 6, 7]

/-- `lowest(m)`: the least `n` with bit `n` set (R15); `none` for 0. -/
def lowest (m : Byte) : Option (Fin 8) := allLines.find? (fun n => m.getLsbD n.val)

/-- `unserviced(pic) = irr & ~ocw1 & ~isr` (R32). -/
def Pic.unserviced (q : Pic) : Byte := q.irr &&& ~~~q.ocw1 &&& ~~~q.isr

/-- The level the output line must have (R32). -/
def Pic.outputLevel (q : Pic) : Bool := q.unserviced != 0

/-- `level(pic, n)`: line `n` is level-triggered (R31). -/
def Pic.level (q : Pic) (n : Fin 8) : Bool := q.icw1 &&& icw1Ltim != 0 || q.elcr.getLsbD n.val

/-- `select(pic)` (R181). -/
def Pic.select (q : Pic) : Option (Fin 8) := lowest q.unserviced

/-- The vector of line `n` (R105). -/
def Pic.vector (q : Pic) (n : Fin 8) : Byte := (q.icw2 &&& icw2BaseMask) ||| BitVec.ofNat 8 n.val

/-- The poll byte (R104). -/
def Pic.pollByte (q : Pic) : Byte :=
  match q.select with
  | some n => 0x80 ||| BitVec.ofNat 8 n.val
  | none => 0x07

/-- What a command-port read returns (R175). -/
def Pic.readSelected (q : Pic) : Byte := if q.ocw3 &&& ocw3ReadSelect = ocw3ReadSelect then q.isr else q.irr

/-- What an acknowledge cycle finds (R183, R184, R186). -/
def Pic.ackKind (q : Pic) : AckKind :=
  match q.select with
  | none => .nothing
  | some n => if (q.secondary.get n).isSome then .cascade else .own

/-- Status BUSY (R112). -/
abbrev ataBusy : Byte := 0x80
/-- Status DRQ (R112). -/
abbrev ataDrq : Byte := 0x08
/-- Status ERR (R112). -/
abbrev ataErr : Byte := 0x01
/-- The bits of status that a result does not replace (R233: `0x77` is the merge mask). -/
abbrev ataKept : Byte := 0x88
/-- The bits of status that a result replaces (R112, R233). -/
abbrev ataMerged : Byte := 0x77
/-- Drive/Head LBA bit (R114). -/
abbrev driveHeadLba : Byte := 0x40
/-- Drive/Head device-select bit (R114). -/
abbrev driveHeadDev : Byte := 0x10
/-- Device Control nIEN (R115). -/
abbrev controlNien : Byte := 0x02
/-- Device Control SRST (R115). -/
abbrev controlSrst : Byte := 0x04

/-- BUSY is set (R213). -/
def AtaDevice.busy (dev : AtaDevice) : Bool := dev.regs.status &&& ataBusy != 0

/-- DRQ is set (R39). -/
def AtaDevice.drq (dev : AtaDevice) : Bool := dev.regs.status &&& ataDrq != 0

/-- The interrupt level a device shows outside (R44, R229). -/
def AtaDevice.visible (dev : AtaDevice) : Bool := dev.intrq && !dev.nIEN

/-- `(status & 0x88) | (res & 0x77)` (R127 d, R233). -/
def mergeStatus (status res : Byte) : Byte := (status &&& ataKept) ||| (res &&& ataMerged)

/-- The step of the worker that is enabled (R230); a stopped worker takes none (R236). -/
def AtaDevice.workerKind (dev : AtaDevice) : Option WorkerKind :=
  if dev.stopped then none
  else if dev.stopRequested then some .stop
  else if dev.resetRequested then some .reset
  else if dev.commandRequested then some .command
  else if dev.continueRequested then
    match dev.op with
    | some op => some (match op.kind with | .read => .continueRead | .write => .continueWrite)
    | none => none
  else none

/-- The device the select bit of a Drive/Head byte names (R114, R272). -/
def selectedDrive (b : Byte) : Drive := if b &&& driveHeadDev != 0 then .slave else .master

end Sys2Proof.Machine
end

