-- ==== Sys2Proof/Machine/Operands.lean ====
section
/-! DEFINITION. The operand computations: the words, masks and data of a split access (spec/40_dispatcher.md R130 to
R133), the bytes of a datum (R63), the ranges of a dispatcher (R34, R35, R137) and the tiles of a mapping (R140), the
sector address and count (spec/30_encoding.md R119, R120), the data word (R121) and IDENTIFY_DATA (R122). -/
namespace Sys2Proof.Machine

/-- The least significant byte. -/
def lowByte (v : Half) : Byte := v.truncate 8

/-- Bits 15:8. -/
def highByte (v : Half) : Byte := (v >>> 8).truncate 8

/-- `lo | hi << 8` (R63, R121). -/
def wordOf (lo hi : Byte) : Half := hi.zeroExtend 16 <<< 8 ||| lo.zeroExtend 16

/-- Byte `i` of a datum, byte 0 the least significant (R63). -/
def quadByte (v : Quad) (i : Nat) : Byte := (v >>> (8 * i)).truncate 8

/-- The `n` bytes of a datum, lowest first. -/
def quadBytes (v : Quad) (n : Nat) : List Byte := (List.range n).map (quadByte v)

/-- A byte in byte position `i` of a datum. -/
def byteAtLane (b : Byte) (i : Nat) : Quad := b.zeroExtend 64 <<< (8 * i)

/-- `first = a - (a mod W)` (R131). -/
def firstWord (a w : Nat) : Nat := a - a % w

/-- `last = (a + s - 1) - ((a + s - 1) mod W)` (R131). -/
def lastWord (a sz w : Nat) : Nat := (a + sz - 1) - (a + sz - 1) % w

/-- The words overlapped by an access, in ascending order (R131). -/
def splitWords (a sz w : Nat) : List Nat :=
  (List.range ((lastWord a sz w - firstWord a w) / w + 1)).map (fun k => firstWord a w + k * w)

/-- Lane `j` of word `x` is touched: `a <= x + j < a + s` (R131). -/
def laneTouched (a sz x j : Nat) : Bool := decide (a ≤ x + j ∧ x + j < a + sz)

/-- The touched lanes of word `x`, in ascending order. -/
def touchedLanes (a sz w x : Nat) : List Nat := (List.range w).filter (laneTouched a sz x)

/-- `M(x)`: 0xFF in every touched lane (R131). -/
def laneMask (a sz w x : Nat) : Quad :=
  (touchedLanes a sz w x).foldl (fun m j => m ||| byteAtLane 0xFF j) 0

/-- `D(x)`: byte `x + j - a` of the datum in every touched lane `j`, zero elsewhere (R132). -/
def laneData (a sz w : Nat) (v : Quad) (x : Nat) : Quad :=
  (touchedLanes a sz w x).foldl (fun m j => m ||| byteAtLane (quadByte v (x + j - a)) j) 0

/-- A word call of a split write: the word's address, the byte mask and the data (R132). -/
structure WordCall where
  address : Nat
  mask : Quad
  data : Quad
deriving DecidableEq, Repr

/-- The word calls of a split write, in order (R132). -/
def splitWriteCalls (a sz w : Nat) (v : Quad) : List WordCall :=
  (splitWords a sz w).map (fun x => { address := x, mask := laneMask a sz w x, data := laneData a sz w v x })

/-- The word calls of a split read, in order: address and mask (R133). -/
def splitReadCalls (a sz w : Nat) : List (Nat × Quad) :=
  (splitWords a sz w).map (fun x => (x, laneMask a sz w x))

/-- The result of a split read from the words that were returned (R133), byte by byte, with no accumulator limit (C2). -/
def assembleRead (a sz w : Nat) (words : List (Nat × Quad)) : Quad :=
  words.foldl (fun acc r =>
    (touchedLanes a sz w r.1).foldl (fun acc j => acc ||| byteAtLane (quadByte r.2 j) (r.1 + j - a)) acc) 0

/-- Lane `j` of a mask is set (R131: `byteEnable[j] = M[8j]`). -/
def maskLane (m : Quad) (j : Nat) : Bool := m.getLsbD (8 * j)

/-- All ones at the width of an access (R138). -/
def onesBytes (sz : Nat) : List Byte := List.replicate sz 0xFF

/-- The range contains the address (R34). -/
def rangeContains (r : AddressRange) (a : Nat) : Bool := decide (r.beginAddress ≤ a ∧ a < r.endAddress)

/-- Two half-open intervals overlap (R35). -/
def rangesOverlap (r q : AddressRange) : Bool :=
  decide (r.beginAddress < q.endAddress ∧ q.beginAddress < r.endAddress)

/-- The range with the largest `beginAddress <= a` whose `endAddress > a` (R137). -/
def findRange : List AddressRange → Nat → Option AddressRange
  | [], _ => none
  | r :: t, a =>
    match findRange t a with
    | some q => if rangeContains r a && decide (q.beginAddress < r.beginAddress) then some r else some q
    | none => if rangeContains r a then some r else none

/-- `resolve(disp, a)`: the handler and `a - beginAddress + offset` (R137). -/
def Dispatcher.resolve (disp : Dispatcher) (a : Nat) : Route :=
  match findRange disp.ranges a with
  | some r => .to r.handler (a - r.beginAddress + r.offset)
  | none => .unresolved

/-- Insertion in order of `beginAddress` (R34: an address-ordered set). -/
def insertRange (r : AddressRange) : List AddressRange → List AddressRange
  | [] => [r]
  | q :: t => if r.beginAddress ≤ q.beginAddress then r :: q :: t else q :: insertRange r t

/-- The tiles of host block `m` in range `r`: one `mapMemory` for each (R140). -/
def rangeTiles (r : AddressRange) (m : Nat) (b : HostBlock) : List Mapping :=
  (List.range ((r.endAddress - r.beginAddress + b.size - 1) / b.size)).map (fun k =>
    { base := r.beginAddress + k * b.size,
      limit := r.beginAddress + k * b.size + min b.size (r.endAddress - (r.beginAddress + k * b.size)),
      block := m, permissions := b.permissions })

/-- The host block behind a handler, where it has one (R71, R143). -/
def hostBlockOf (blocks : List HostBlock) : Handler → Option (Nat × HostBlock)
  | .port _ => none
  | .memory m => (blocks[m]?).map (fun b => (m, b))

/-- The mappings a range stands for in the engine; none where the handler has no host memory (R140). -/
def mappingsOf (blocks : List HostBlock) (r : AddressRange) : List Mapping :=
  match hostBlockOf blocks r.handler with
  | some (m, b) => rangeTiles r m b
  | none => []

/-- Sector count: 0 means 256 (R120). -/
def sectorCount (rec : RegFile) : Nat := if rec.sectorCount = 0 then 256 else rec.sectorCount.toNat

/-- The 28-bit LBA (R119). -/
def lbaAddress (rec : RegFile) : Nat :=
  (rec.driveHead &&& 0x0F).toNat * 2 ^ 24 + rec.cylinderHigh.toNat * 2 ^ 16 + rec.cylinderLow.toNat * 2 ^ 8 +
    rec.sectorNumber.toNat

/-- The CHS address under a geometry; `none` where the sector or the head is out of range (R119, R247). -/
def chsAddress (g : Geometry) (rec : RegFile) : Option Nat :=
  let cyl := rec.cylinderHigh.toNat * 2 ^ 8 + rec.cylinderLow.toNat
  let head := (rec.driveHead &&& 0x0F).toNat
  let sec := rec.sectorNumber.toNat
  if sec = 0 ∨ g.sectorsPerTrack < sec ∨ g.heads ≤ head then none
  else some ((cyl * g.heads + head) * g.sectorsPerTrack + (sec - 1))

/-- The geometry in force: the negotiated one, else the default one (R247). -/
def AtaDevice.activeGeometry (dev : AtaDevice) : Geometry := dev.geometry.getD dev.disk.defaultGeometry

/-- `address(dev, rec)`; `none` is an abort (R247). -/
def AtaDevice.sectorAddress (dev : AtaDevice) (rec : RegFile) : Option Nat :=
  if rec.driveHead &&& driveHeadLba != 0 then some (lbaAddress rec) else chsAddress dev.activeGeometry rec

/-- The cylinder count of the identification structure: at most 16383 (R122, R250). -/
def identifyCylinders (p : DiskParams) : Nat :=
  min (p.totalSectors / (p.defaultGeometry.heads * p.defaultGeometry.sectorsPerTrack)) 16383

/-- Word `k` of `IDENTIFY_DATA`: the words that R122 places are computed from the disk's parameters, every other word is
a parameter. The spec does not say what words 60 and 61 hold for 2^32 sectors or more, nor what word 3 or 6 holds where the
heads or the sectors per track of the default geometry, which R12 only bounds below, do not fit in 16 bits: there the word is
a parameter too (DESIGN CHOICE, notes/assumptions/19.md). -/
def identifyWord (p : DiskParams) (k : Nat) : Half :=
  if k = 1 then BitVec.ofNat 16 (identifyCylinders p)
  else if k = 3 ∧ p.defaultGeometry.heads < 2 ^ 16 then BitVec.ofNat 16 p.defaultGeometry.heads
  else if k = 6 ∧ p.defaultGeometry.sectorsPerTrack < 2 ^ 16 then BitVec.ofNat 16 p.defaultGeometry.sectorsPerTrack
  else if k = 60 ∧ p.totalSectors < 2 ^ 32 then BitVec.ofNat 16 p.totalSectors
  else if k = 61 ∧ p.totalSectors < 2 ^ 32 then BitVec.ofNat 16 (p.totalSectors / 65536)
  else wordOf (Memory.read p.identifyRest (2 * k)) (Memory.read p.identifyRest (2 * k + 1))

/-- The bytes of `n` words of `IDENTIFY_DATA` from word `k` on, low byte first (R122). -/
def identifyBytes (p : DiskParams) (k : Nat) : Nat → List Byte
  | 0 => []
  | n + 1 => lowByte (identifyWord p k) :: highByte (identifyWord p k) :: identifyBytes p (k + 1) n

/-- `IDENTIFY_DATA`: 512 bytes (R122, R250). -/
def identifyData (p : DiskParams) : List Byte := identifyBytes p 0 256

end Sys2Proof.Machine
end

