-- ==== Sys2Proof/Machine/Ops.lean ====
section
/-! DEFINITION. The named operations the meanings share: the agents' threads, the reply, the PIC's output line and its
receiver (spec/41_pic.md R180), taking an interrupt = the acknowledge cycle (R183 to R186) and the return from one = EOI
(R168, R169), the demux output (spec/43_ata_demux_xtide.md R273), and access to the parts of the state. -/
namespace Sys2Proof.Machine

/-! ## Agents and threads -/

/-- The thread of an agent; an agent not listed has nothing to do. -/
def threadOf : List (Agent × Thread) → Agent → Thread
  | [], _ => {}
  | (b, t) :: rest, a => if b = a then t else threadOf rest a

/-- The threads with that of one agent replaced. -/
def putThread : List (Agent × Thread) → Agent → Thread → List (Agent × Thread)
  | [], a, t => [(a, t)]
  | (b, u) :: rest, a, t => if b = a then (a, t) :: rest else (b, u) :: putThread rest a t

/-- The thread of an agent. -/
def State.thread (s : State) (a : Agent) : Thread := threadOf s.threads a

/-- Replace the thread of an agent. -/
def State.setThread (s : State) (a : Agent) (t : Thread) : State := { s with threads := putThread s.threads a t }

/-- What the active agent does next, before anything else, within the operation it is in (R67, R74, R76). -/
def State.pushFollow (s : State) (es : List Event) : State :=
  s.setThread s.active { s.thread s.active with follow := es ++ (s.thread s.active).follow }

/-- Add result bytes and diagnostics to the reply of the active agent's operation (R16). -/
def State.answer (s : State) (bytes : List Byte) (diagnostics : List Diagnostic) : State :=
  s.setThread s.active
    { s.thread s.active with
      reply := { (s.thread s.active).reply with
        bytes := (s.thread s.active).reply.bytes ++ bytes,
        diagnostics := (s.thread s.active).reply.diagnostics ++ diagnostics } }

/-- Return a registration handle to the active agent (R134). -/
def State.answerHandle (s : State) (k : Nat) : State :=
  s.setThread s.active
    { s.thread s.active with reply := { (s.thread s.active).reply with handle := some k } }

/-- Return the result of a resolution to the active agent (R137). -/
def State.answerRoute (s : State) (r : Route) : State :=
  s.setThread s.active
    { s.thread s.active with reply := { (s.thread s.active).reply with route := some r } }

/-! ## Parts of the state -/

/-- The device of a channel. -/
def State.device (s : State) : Drive → AtaDevice
  | .master => s.master
  | .slave => s.slave

/-- Replace one device. -/
def State.setDevice (s : State) (d : Drive) (dev : AtaDevice) : State :=
  match d with
  | .master => { s with master := dev }
  | .slave => { s with slave := dev }

/-- The dispatcher of an address space. -/
def State.dispatcher (s : State) : Space → Dispatcher
  | .io => s.io
  | .mem => s.mem

/-- Replace one dispatcher. -/
def State.setDispatcher (s : State) (sp : Space) (disp : Dispatcher) : State :=
  match sp with
  | .io => { s with io := disp }
  | .mem => { s with mem := disp }

/-- Replace one PIC. -/
def State.setPic (s : State) (p : Nat) (q : Pic) : State := { s with pics := s.pics.set p q }

/-- Replace the PICs. -/
def State.setPics (s : State) (qs : List Pic) : State := { s with pics := qs }

/-- Replace the registration handles. -/
def State.setRegistrations (s : State) (gs : List Registration) : State := { s with registrations := gs }

/-- Replace the host blocks. -/
def State.setHostBlocks (s : State) (bs : List HostBlock) : State := { s with hostBlocks := bs }

/-- Replace the demux's state. -/
def State.setMux (s : State) (m : Demux) : State := { s with mux := m }

/-- Replace the XTIDE latch. -/
def State.setLatch (s : State) (v : Half) : State := { s with latch := v }

/-- Replace the CPU engine's sink. -/
def State.setSink (s : State) (k : Sink) : State := { s with sink := k }

/-- Go on with a PIC; a PIC that does not exist is refused by name (U10, notes/assumptions/16.md). -/
def State.withPic (s : State) (p : Nat) (k : Pic → Result) : Result :=
  match s.pics[p]? with
  | some q => k q
  | none => .refused (.absentDevice (.pic p))

/-- The byte of a host block at an index (R71). -/
def State.hostByte (s : State) (m a : Nat) : Byte :=
  match s.hostBlocks[m]? with
  | some b => Memory.read b.cells a
  | none => Memory.blank

/-- The byte of a backing store (R12). -/
def State.storeByte (s : State) (d : Drive) (a : Nat) : Byte := Memory.read (s.device d).store a

/-! ## The output line of a PIC (R180) -/

/-- The line of the first PIC of a list, counted from `k`, whose table of secondaries names `p` (R28, D40). -/
def primaryIn (p : Nat) : List Pic → Nat → Option LineRef
  | [], _ => none
  | q :: t, k =>
    match allLines.find? (fun n => q.secondary.get n == some p) with
    | some n => some { pic := k, line := n }
    | none => primaryIn p t (k + 1)

/-- The primary's line that PIC `p` drives; `none` for an outermost PIC (R48). -/
def State.primaryLine (s : State) (p : Nat) : Option LineRef := primaryIn p s.pics 0

/-- `pic.outputLine.setInterruptAsserted(level)`: a line of the primary, as the same agent's next step (R74, R276), or the
CPU engine's sink (R180). -/
def State.notifyReceiver (s : State) (p : Nat) (level : Bool) : State :=
  match s.primaryLine p with
  | some l => s.pushFollow [.line l.pic l.line level]
  | none => s.setSink { level := level, notices := s.sink.notices + 1 }

/-- Store PIC `p` and perform `updateOutput`: the level is recomputed, and the receiver is told only when it changes
(R180). -/
def State.commitPic (s : State) (p : Nat) (q : Pic) : State :=
  if q.outputLevel = q.out then s.setPic p q
  else (s.setPic p { q with out := q.outputLevel }).notifyReceiver p q.outputLevel

/-! ## Taking an interrupt and returning from one -/

/-- The PIC's own part of an acknowledge of line `n` (R183): `irr[n]` falls unless the line is level-triggered, `isr[n]`
rises unless auto-EOI is configured (R185). -/
def Pic.acknowledged (q : Pic) (n : Fin 8) : Pic :=
  { q with
    irr := if q.level n then q.irr else setLineBit q.irr n false,
    isr := if q.icw4 &&& icw4Aeoi = 0 then setLineBit q.isr n true else q.isr }

/-- TAKING AN INTERRUPT: `processInterruptAcknowledge()` on PIC `p` (R183 to R186). With nothing unserviced the vector of
line 7 is returned and nothing changes; otherwise the line is acknowledged, the output recomputed, and the vector is the
PIC's own, or that of the secondary PIC chained on the line, whose acknowledge is the agent's next step. -/
def State.acknowledge (s : State) (p : Nat) : Result :=
  s.withPic p fun q =>
    match q.select with
    | none => .next (s.answer [q.vector 7] [])
    | some n =>
      match q.secondary.get n with
      | some sec => .next ((s.pushFollow [.inta sec]).commitPic p (q.acknowledged n))
      | none => .next ((s.answer [q.vector n] []).commitPic p (q.acknowledged n))

/-- Non-specific EOI (R168): the in-service bit of the lowest-numbered line in service falls. -/
def Pic.endOfInterrupt (q : Pic) : Pic :=
  match lowest q.isr with
  | some n => { q with isr := setLineBit q.isr n false }
  | none => q

/-- Specific EOI (R169): the in-service bit of the named line falls. -/
def Pic.endOfInterruptAt (q : Pic) (n : Fin 8) : Pic := { q with isr := setLineBit q.isr n false }

/-! ## The interrupt line of the ATA channel (R273) -/

/-- Drive a wired line, as the same agent's next step (R74); an unwired output changes nothing. -/
def State.driveLine (s : State) (wire : Option LineRef) (level : Bool) : State :=
  match wire with
  | some l => s.pushFollow [.line l.pic l.line level]
  | none => s

/-- `updateMux` (R273). -/
def State.updateMux (s : State) : State :=
  if (s.device s.mux.selected).visible = s.mux.out then s
  else
    (s.setMux { s.mux with out := (s.device s.mux.selected).visible }).driveLine s.wiring.muxLine
      (s.device s.mux.selected).visible

/-- Store a device and let the demux see its interrupt output: one atomic step (R74, R229, R276). -/
def State.commitDevice (s : State) (d : Drive) (dev : AtaDevice) : State := (s.setDevice d dev).updateMux

end Sys2Proof.Machine
end

