-- ==== Sys2Proof/Machine/Bus.lean ====
section
/-! DEFINITION. The splitting utility and the address-space dispatcher (spec/40_dispatcher.md R130 to R144). Resolution is
one step and the handler call the next (spec/20_memory.md R76), and each word call is a step of its own (R67), on a port
device as on a host block. -/
namespace Sys2Proof.Machine

/-! ## The splitting utility -/

/-- The one-byte port accesses of a word write on a port device: one for each touched lane (R69, R132). -/
def portWriteEvents (dev : PortDevice) (a sz w : Nat) (v : Quad) : List Event :=
  (splitWriteCalls a sz w v).flatMap fun c =>
    (touchedLanes a sz w c.address).map fun j => .portWrite dev (c.address + j) (quadByte c.data j)

/-- The one-byte port accesses of a word read on a port device (R69, R133). -/
def portReadEvents (dev : PortDevice) (a sz w : Nat) : List Event :=
  (splitReadCalls a sz w).flatMap fun c =>
    (touchedLanes a sz w c.1).map fun j => .portRead dev (c.1 + j)

/-- The word at handler offset `x` of a host block, from host bytes `x mod size` on, tiled (R71). -/
def HostBlock.readWord (b : HostBlock) (w x : Nat) : Quad :=
  (List.range w).foldl (fun acc j => acc ||| byteAtLane (Memory.read b.cells ((x + j) % b.size)) j) 0

/-- Store the lanes of a word write that its mask enables (R71, R131, R146). Where the block is smaller than the word, two
lanes fall on the same host byte, and the spec gives no order of the lanes within one call: they are stored in ascending
order, so that the higher enabled lane stays (DESIGN CHOICE, notes/assumptions/15.md). -/
def HostBlock.writeWord (b : HostBlock) (w : Nat) (c : WordCall) : HostBlock :=
  (List.range w).foldl
    (fun acc j =>
      if maskLane c.mask j then
        { acc with cells := Memory.write acc.cells ((c.address + j) % acc.size) (quadByte c.data j) }
      else acc) b

/-- The word calls of a split write on a host block, in order (R132). -/
def wordWriteEvents (m a sz w : Nat) (v : Quad) : List Event :=
  (splitWriteCalls a sz w v).map fun c => .wordWrite m w c.address c.mask c.data

/-- The word calls of a split read on a host block, in order (R133). -/
def wordReadEvents (m a sz w : Nat) : List Event :=
  (splitReadCalls a sz w).map fun c => .wordRead m w c.1 c.2

/-- Go on with a host block; one that does not exist is refused by name (notes/assumptions/16.md). -/
def State.withBlock (s : State) (m : Nat) (k : HostBlock → Result) : Result :=
  match s.hostBlocks[m]? with
  | some b => k b
  | none => .refused (.absentDevice (.hostBlock m))

/-- One word write on host block `m`: one atomic step (R67, R132). -/
def State.wordWrite (s : State) (m w x : Nat) (mask data : Quad) : Result :=
  s.withBlock m fun b =>
    .next (s.setHostBlocks (s.hostBlocks.set m (b.writeWord w { address := x, mask := mask, data := data })))

/-- The bytes of a word read that its mask enables, lowest first (R133: the others are masked away). -/
def HostBlock.readLanes (b : HostBlock) (w x : Nat) (mask : Quad) : List Byte :=
  ((List.range w).filter (maskLane mask)).map (quadByte (b.readWord w x))

/-- One word read on host block `m`: one atomic step, whose enabled bytes are added to the reply (R67, R133). -/
def State.wordRead (s : State) (m w x : Nat) (mask : Quad) : Result :=
  s.withBlock m fun b => .next (s.answer (b.readLanes w x mask) [])

/-- Split write (R132): the word calls on a host block, the port accesses on a port device, in ascending order, are the
agent's next steps; the utility itself has no effect (R130). -/
def execSplitWrite (h : Handler) (a sz : Nat) (v : Quad) (w : Nat) (s : State) : Result :=
  match h with
  | .port dev => .next (s.pushFollow (portWriteEvents dev a sz w v))
  | .memory m => s.withBlock m fun _ => .next (s.pushFollow (wordWriteEvents m a sz w v))

/-- Split read (R133): as the split write; each call adds the bytes it touched to the reply, lowest first. -/
def execSplitRead (h : Handler) (a sz w : Nat) (s : State) : Result :=
  match h with
  | .port dev => .next (s.pushFollow (portReadEvents dev a sz w))
  | .memory m => s.withBlock m fun _ => .next (s.pushFollow (wordReadEvents m a sz w))

/-! ## Mappings -/

/-- `mapRange(r)` (R140): the tiles of a host-backed range go to the engine; another handler gets its callback, which does
nothing in the devices of the block (notes/assumptions/25.md). -/
def Dispatcher.mapRange (blocks : List HostBlock) (disp : Dispatcher) (r : AddressRange) : Dispatcher :=
  { disp with
    engineMap := disp.engineMap ++ mappingsOf blocks r,
    mapped := if r ∈ disp.mapped then disp.mapped else disp.mapped ++ [r] }

/-- `unmapRange(r)` (R141). -/
def Dispatcher.unmapRange (blocks : List HostBlock) (disp : Dispatcher) (r : AddressRange) : Dispatcher :=
  { disp with
    engineMap := disp.engineMap.filter (fun t => t ∉ mappingsOf blocks r),
    mapped := disp.mapped.filter (fun q => q ≠ r) }

/-- `unregisterAddressRange(r)` (R136). -/
def Dispatcher.unregister (blocks : List HostBlock) (disp : Dispatcher) (r : AddressRange) : Dispatcher :=
  let unmapped : Dispatcher :=
    if disp.engine.isSome ∧ r ∈ disp.mapped then Dispatcher.unmapRange blocks disp r else disp
  { unmapped with ranges := disp.ranges.filter (fun q => q ≠ r) }

/-- The table with range `r` in it and, with an engine attached, mapped (R134). -/
def Dispatcher.register (blocks : List HostBlock) (disp : Dispatcher) (r : AddressRange) : Dispatcher :=
  let inserted : Dispatcher := { disp with ranges := insertRange r disp.ranges }
  if disp.engine.isSome then Dispatcher.mapRange blocks inserted r else inserted

/-- Unregister a range in the dispatcher of a space. -/
def State.unregister (s : State) (sp : Space) (r : AddressRange) : State :=
  s.setDispatcher sp (Dispatcher.unregister s.hostBlocks (s.dispatcher sp) r)

/-! ## The meanings -/

/-- What a handler names that does not exist (notes/assumptions/16.md). -/
def State.absentHandler (s : State) : Handler → Option Absent
  | .port (.pic p) => if p < s.pics.length then none else some (.pic p)
  | .port (.elcr p) => if p < s.pics.length then none else some (.pic p)
  | .port .xtide => none
  | .memory m => if m < s.hostBlocks.length then none else some (.hostBlock m)

/-- `registerAddressRange(base, limit, handler, offset)` (R134). A handler that does not exist cannot be handed to the
dispatcher; naming one is refused, after the two checks of R134 (DESIGN CHOICE, notes/assumptions/16.md). -/
def execReg (sp : Space) (base limit : Nat) (h : Handler) (off : Nat) (s : State) : Result :=
  let r : AddressRange := { beginAddress := base, endAddress := limit, offset := off, handler := h }
  if limit ≤ base then .refused .emptyRange
  else if (s.dispatcher sp).ranges.any (rangesOverlap r) then .fault .configurationConflict
  else
    match s.absentHandler h with
    | some what => .refused (.absentDevice what)
    | none =>
      .next (((s.setDispatcher sp (Dispatcher.register s.hostBlocks (s.dispatcher sp) r)).setRegistrations
        (s.registrations ++ [{ space := sp, range := r, attached := true }])).answerHandle s.registrations.length)

/-- `release()`, destruction and move of a registration handle (R37, R135). The spec does not say what an operation on a
handle that was destroyed already does: here it stays a detached handle, on which each of the three is what it is on any
detached one (DESIGN CHOICE, notes/assumptions/23.md). -/
def execRelease (k : Nat) (op : HandleOp) (s : State) : Result :=
  match s.registrations[k]? with
  | none => .refused (.absentDevice (.registration k))
  | some g =>
    match op with
    | .release => .next (s.setRegistrations (s.registrations.set k { g with attached := false }))
    | .destroy =>
      if g.attached then
        .next ((s.unregister g.space g.range).setRegistrations (s.registrations.set k { g with attached := false }))
      else .next s
    | .move =>
      .next ((s.setRegistrations (s.registrations.set k { g with attached := false } ++ [g])).answerHandle
        s.registrations.length)

/-- `unregisterAddressRange(r)` (R136). -/
def execUnreg (sp : Space) (r : AddressRange) (s : State) : Result := .next (s.unregister sp r)

/-- Resolution (R137). -/
def execResolve (sp : Space) (a : Nat) (s : State) : Result := .next (s.answerRoute ((s.dispatcher sp).resolve a))

/-- The register-word size of a handler (R9, R69, R280). -/
def State.wordSize (s : State) : Handler → Nat
  | .port _ => 1
  | .memory m =>
    match s.hostBlocks[m]? with
    | some b => b.word
    | none => 1

/-- `read(address, size)` (R138): the handler's read of the whole access is the agent's next step (R65, R76); an
unresolved address reads all ones. -/
def execInPort (sp : Space) (a sz : Nat) (s : State) : Result :=
  match (s.dispatcher sp).resolve a with
  | .to h off => .next (s.pushFollow [.splitRead h off sz (s.wordSize h)])
  | .unresolved => .next (s.answer (onesBytes sz) [.unresolvedAddress])

/-- `write(address, size, data)` (R139): as the read; an unresolved write is dropped. -/
def execOutPort (sp : Space) (a sz : Nat) (v : Quad) (s : State) : Result :=
  match (s.dispatcher sp).resolve a with
  | .to h off => .next (s.pushFollow [.splitWrite h off sz v (s.wordSize h)])
  | .unresolved => .next (s.answer [] [.unresolvedAddress])

/-- `establishMappings(cpuEngine, base, limit)` (R140). -/
def execEstablishMappings (sp : Space) (engine base limit : Nat) (s : State) : Result :=
  let disp := s.dispatcher sp
  if disp.engine.isSome then .refused .engineAlreadyAttached
  else
    .next (s.setDispatcher sp
      (disp.ranges.foldl (Dispatcher.mapRange s.hostBlocks)
        { disp with engine := some { engine := engine, base := base, limit := limit } }))

/-- `removeMappings()` (R141). -/
def execRemoveMappings (sp : Space) (s : State) : Result :=
  let disp := s.dispatcher sp
  let unmapped : Dispatcher := disp.mapped.foldl (Dispatcher.unmapRange s.hostBlocks) disp
  .next (s.setDispatcher sp { unmapped with engine := none })

end Sys2Proof.Machine
end

