-- ==== Sys2Proof/Machine/AtaPorts.lean ====
section
/-! DEFINITION. The bus side of an ATA device: the BUSY gate, the register writes and reads, the PIO transfer engine and
the control block (spec/42_ata_device.md R213 to R229). A row's meaning is its access performed in the state at hand
(R213, R300: bad index, then the gate, then the register's own rule; notes/assumptions/22.md). Each access is one atomic
step of the device with the demux's view of its interrupt (R74, R210, R276). -/
namespace Sys2Proof.Machine

/-- What an access of a device gives: the device after it, the bytes it returns, the diagnostics it logs. -/
structure DeviceReply where
  dev : AtaDevice
  bytes : List Byte
  diagnostics : List Diagnostic
deriving DecidableEq, Repr

/-- `lowerInterrupt` (R229). -/
def AtaDevice.lowerInterrupt (dev : AtaDevice) : AtaDevice := { dev with intrq := false }

/-- `raiseInterrupt` (R229). -/
def AtaDevice.raiseInterrupt (dev : AtaDevice) : AtaDevice := { dev with intrq := true }

/-- Set bits of the status register. -/
def AtaDevice.setStatus (dev : AtaDevice) (mask : Byte) : AtaDevice :=
  { dev with regs := { dev.regs with status := dev.regs.status ||| mask } }

/-- Clear bits of the status register. -/
def AtaDevice.clearStatus (dev : AtaDevice) (mask : Byte) : AtaDevice :=
  { dev with regs := { dev.regs with status := dev.regs.status &&& ~~~mask } }

/-! ## The PIO transfer engine (R224 to R228) -/

/-- `pioRead(len)` and `pioWrite(len)` (R224, R225). -/
def AtaDevice.startPio (dev : AtaDevice) (x : Xfer) (len : Nat) : AtaDevice :=
  ({ dev with cursor := 0, length := len, xfer := x }).setStatus ataDrq

/-- The operation record after a chunk of `k` sectors (R226, R235); `none` when the command is done. -/
def Operation.advance (op : Operation) (k : Nat) : Option Operation :=
  if op.remaining - k = 0 then none
  else some { op with lba := op.lba + k, remaining := op.remaining - k }

/-- The end of a read chunk (R226): DRQ off, the transfer idle; another chunk is asked of the worker with BUSY set. -/
def AtaDevice.endReadChunk (dev : AtaDevice) : AtaDevice :=
  let idle : AtaDevice := { dev.clearStatus ataDrq with xfer := .idle }
  match dev.op with
  | none => idle
  | some op =>
    match op.advance (dev.length / 512) with
    | none => { idle with op := none }
    | some next => ({ idle with op := some next, continueRequested := true }).setStatus ataBusy

/-- The end of a write chunk (R227): DRQ off, BUSY on, the flush is asked of the worker. -/
def AtaDevice.endWriteChunk (dev : AtaDevice) : AtaDevice :=
  ({ dev.clearStatus ataDrq with xfer := .idle, continueRequested := true }).setStatus ataBusy

/-- The bytes one data access moves: 1 in 8-bit mode, 2 in 16-bit mode (R121). -/
def AtaDevice.dataWidth (dev : AtaDevice) : Nat := if dev.pio8 then 1 else 2

/-- The cursor after a data access (R226, R227). It stays at most the length, as R39 requires; the two formulas give more
only where a 16-bit access begins on the last byte of a chunk (notes/assumptions/18.md). -/
def AtaDevice.nextCursor (dev : AtaDevice) : Nat := min (dev.cursor + dev.dataWidth) dev.length

/-- Read Data (R226), or the safe default outside a read transfer (R228). -/
def AtaDevice.readData (d : Drive) (dev : AtaDevice) : DeviceReply :=
  if dev.xfer = .pioRead then
    let lo := bufferByte d dev.buffer dev.cursor
    let hi := if dev.pio8 then 0x00 else bufferByte d dev.buffer (dev.cursor + 1)
    let moved : AtaDevice := { dev with cursor := dev.nextCursor }
    { dev := if dev.length ≤ moved.cursor then moved.endReadChunk else moved, bytes := [lo, hi], diagnostics := [] }
  else { dev := dev, bytes := [0xFF, 0xFF], diagnostics := [.ataNoTransfer] }

/-- Write Data (R227), or nothing outside a write transfer (R228). -/
def AtaDevice.writeData (dev : AtaDevice) (v : Half) : DeviceReply :=
  if dev.xfer = .pioWrite then
    let bytes := if dev.pio8 then [lowByte v] else [lowByte v, highByte v]
    let moved : AtaDevice :=
      { dev with buffer := bufferPut dev.buffer dev.cursor bytes, cursor := dev.nextCursor }
    { dev := if dev.length ≤ moved.cursor then moved.endWriteChunk else moved, bytes := [], diagnostics := [] }
  else { dev := dev, bytes := [], diagnostics := [.ataNoTransfer] }

/-! ## Registers (R213 to R223) -/

/-- A write at index 1 to 6 with BUSY clear (R214, R215, R216). -/
def RegFile.write (r : RegFile) (i : Nat) (b : Byte) : RegFile :=
  match i with
  | 1 => { r with feature := b }
  | 2 => { r with sectorCount := b }
  | 3 => { r with sectorNumber := b }
  | 4 => { r with cylinderLow := b }
  | 5 => { r with cylinderHigh := b }
  | _ => { r with driveHead := b }

/-- A read at index 1 to 6 with BUSY clear (R220). -/
def RegFile.read (r : RegFile) (i : Nat) : Byte :=
  match i with
  | 1 => r.error
  | 2 => r.sectorCount
  | 3 => r.sectorNumber
  | 4 => r.cylinderLow
  | 5 => r.cylinderHigh
  | _ => r.driveHead

/-- Write Command (R218): BUSY set, the request latched, the interrupt lowered, in one step; refused while BUSY. -/
def AtaDevice.writeCommand (dev : AtaDevice) (b : Byte) : Host.Outcome DeviceReply Fault Refusal :=
  if dev.busy then .refused .ataCommandWhileBusy
  else
    .next
      { dev := ({ dev with regs := { dev.regs with command := b }, commandRequested := true }).setStatus ataBusy
          |>.lowerInterrupt,
        bytes := [], diagnostics := [] }

/-- A command-block write (R213 to R218, R227, R228, R300). -/
def AtaDevice.writeIndex (dev : AtaDevice) (i : Nat) (v : Half) : Host.Outcome DeviceReply Fault Refusal :=
  if 7 < i then .next { dev := dev, bytes := [], diagnostics := [.ataBadRegister] }
  else if i = 0 then .next (dev.writeData v)
  else if i = 7 then dev.writeCommand (lowByte v)
  else if dev.busy then .next { dev := dev, bytes := [], diagnostics := [.ataBusy] }
  else .next { dev := { dev with regs := dev.regs.write i (lowByte v) }, bytes := [], diagnostics := [] }

/-- A command-block read (R217, R219, R220, R221, R226, R228, R300). The data register and an unsupported index return two
bytes, every other register one (R110, R217; notes/assumptions/26.md). -/
def AtaDevice.readIndex (d : Drive) (dev : AtaDevice) (i : Nat) : DeviceReply :=
  if 7 < i then { dev := dev, bytes := [0xFF, 0xFF], diagnostics := [.ataBadRegister] }
  else if i = 7 then { dev := dev.lowerInterrupt, bytes := [dev.regs.status], diagnostics := [] }
  else if dev.busy then { dev := dev, bytes := [dev.regs.status], diagnostics := [] }
  else if i = 0 then AtaDevice.readData d dev
  else { dev := dev, bytes := [dev.regs.read i], diagnostics := [] }

/-- Write Device Control (R223). -/
def AtaDevice.deviceControl (dev : AtaDevice) (b : Byte) : AtaDevice :=
  let gated : AtaDevice := { dev with nIEN := b &&& controlNien != 0 }
  if b &&& controlSrst = 0 then gated else ({ gated with resetRequested := true }).setStatus ataBusy

/-- A control-block write at an index (R111, R217, R223). -/
def AtaDevice.writeControl (dev : AtaDevice) (i : Nat) (v : Half) : DeviceReply :=
  if i = 6 then { dev := dev.deviceControl (lowByte v), bytes := [], diagnostics := [] }
  else { dev := dev, bytes := [], diagnostics := [.ataBadRegister] }

/-- A control-block read at an index (R111, R217, R222): Alternate Status, with no side effect. -/
def AtaDevice.readControl (dev : AtaDevice) (i : Nat) : DeviceReply :=
  if i = 6 then { dev := dev, bytes := [dev.regs.status], diagnostics := [] }
  else { dev := dev, bytes := [0xFF, 0xFF], diagnostics := [.ataBadRegister] }

/-! ## Accesses of the state -/

/-- Store what an access gave and answer it. -/
def State.finishAccess (s : State) (d : Drive) (r : DeviceReply) : State :=
  (s.answer r.bytes r.diagnostics).commitDevice d r.dev

/-- Go on with what an access gave, or stop as it does. -/
def State.continueAccess (s : State) (d : Drive) (o : Host.Outcome DeviceReply Fault Refusal) : Result :=
  match o with
  | .next r => .next (s.finishAccess d r)
  | .fault f => .fault f
  | .refused r => .refused r

/-- `ATAW d.i, v`. -/
def State.ataWrite (s : State) (d : Drive) (i : Nat) (v : Half) : Result :=
  s.continueAccess d ((s.device d).writeIndex i v)

/-- `ATAR d.i`. -/
def State.ataRead (s : State) (d : Drive) (i : Nat) : Result :=
  .next (s.finishAccess d (AtaDevice.readIndex d (s.device d) i))

/-! ## The meanings -/

/-- Write Feature (R214). -/
def execAtaFeatureW (d : Drive) (b : Byte) (s : State) : Result := s.ataWrite d 1 (byteOnBus b)

/-- Write Sector Count (R215). -/
def execAtaSectorCountW (d : Drive) (b : Byte) (s : State) : Result := s.ataWrite d 2 (byteOnBus b)

/-- Write Sector Number (R215). -/
def execAtaSectorNumberW (d : Drive) (b : Byte) (s : State) : Result := s.ataWrite d 3 (byteOnBus b)

/-- Write Cylinder Low (R215). -/
def execAtaCylinderLowW (d : Drive) (b : Byte) (s : State) : Result := s.ataWrite d 4 (byteOnBus b)

/-- Write Cylinder High (R215). -/
def execAtaCylinderHighW (d : Drive) (b : Byte) (s : State) : Result := s.ataWrite d 5 (byteOnBus b)

/-- Write Drive/Head (R216). -/
def execAtaDriveHeadW (d : Drive) (b : Byte) (s : State) : Result := s.ataWrite d 6 (byteOnBus b)

/-- A register write while BUSY (R213). -/
def execAtaGatedW (d : Drive) (i : Nat) (b : Byte) (s : State) : Result := s.ataWrite d i (byteOnBus b)

/-- Write Command (R218). -/
def execAtaCommandW (d : Drive) (b : Byte) (s : State) : Result := s.ataWrite d 7 (byteOnBus b)

/-- Write Data (R227). -/
def execAtaDataW (d : Drive) (v : Half) (s : State) : Result := s.ataWrite d 0 v

/-- Write Data outside a write transfer (R228). -/
def execAtaDataWIdle (d : Drive) (v : Half) (s : State) : Result := s.ataWrite d 0 v

/-- Read Data (R226). -/
def execAtaDataR (d : Drive) (s : State) : Result := s.ataRead d 0

/-- Read Data outside a read transfer (R228). -/
def execAtaDataRIdle (d : Drive) (s : State) : Result := s.ataRead d 0

/-- Read Error (R220). -/
def execAtaErrorR (d : Drive) (s : State) : Result := s.ataRead d 1

/-- Read Sector Count (R220). -/
def execAtaSectorCountR (d : Drive) (s : State) : Result := s.ataRead d 2

/-- Read Sector Number (R220). -/
def execAtaSectorNumberR (d : Drive) (s : State) : Result := s.ataRead d 3

/-- Read Cylinder Low (R220). -/
def execAtaCylinderLowR (d : Drive) (s : State) : Result := s.ataRead d 4

/-- Read Cylinder High (R220). -/
def execAtaCylinderHighR (d : Drive) (s : State) : Result := s.ataRead d 5

/-- Read Drive/Head (R220). -/
def execAtaDriveHeadR (d : Drive) (s : State) : Result := s.ataRead d 6

/-- Read Status (R219). -/
def execAtaStatusR (d : Drive) (s : State) : Result := s.ataRead d 7

/-- A read while BUSY (R221). -/
def execAtaBusyR (d : Drive) (i : Nat) (s : State) : Result := s.ataRead d i

/-- An access at an unsupported index (R217). -/
def execAtaBadIndex (d : Drive) (blk : AtaBlock) (i : Nat) (acc : Access) (s : State) : Result :=
  match blk, acc with
  | .command, .read => s.ataRead d i
  | .command, .write v => s.ataWrite d i v
  | .control, .read => .next (s.finishAccess d ((s.device d).readControl i))
  | .control, .write v => .next (s.finishAccess d ((s.device d).writeControl i v))

/-- Read Alternate Status (R222). -/
def execAtaAltStatusR (d : Drive) (s : State) : Result := .next (s.finishAccess d ((s.device d).readControl 6))

/-- Write Device Control (R223). -/
def execAtaDeviceControlW (d : Drive) (b : Byte) (s : State) : Result :=
  .next (s.finishAccess d ((s.device d).writeControl 6 (byteOnBus b)))

end Sys2Proof.Machine
end

