-- ==== Sys2Proof/Machine/AtaCommands.lean ====
section
/-! DEFINITION. The commands of ATAHardDisk (spec/42_ata_device.md R240 to R252), the backing-store accesses they make
(R210, R237) and the completion of a command (R233). A command acts on the device and on `rec`, the snapshot of its nine
registers (R211). -/
namespace Sys2Proof.Machine

/-- What `executeCommand` returns (R211). -/
structure CommandResult where
  status : Byte
  error : Byte
deriving DecidableEq, Repr

/-- Success, `(0x50, 0x00)` (R211). -/
def CommandResult.success : CommandResult := { status := 0x50, error := 0x00 }

/-- Abort, `(0x51, 0x04)` (R211). -/
def CommandResult.abort : CommandResult := { status := 0x51, error := 0x04 }

/-- The device and the result after `executeCommand`. -/
structure Executed where
  dev : AtaDevice
  res : CommandResult
deriving DecidableEq, Repr

/-- What a command can answer: the device and a result, or the fault of R237. -/
abbrev CommandOutcome := Host.Outcome Executed Fault Refusal

/-- The effect of one command: `exec(dev, rec)` (R211). -/
abbrev CommandEffect := Drive → AtaDevice → RegFile → CommandOutcome

/-- The command succeeds and leaves this device. -/
def succeed (dev : AtaDevice) : CommandOutcome := .next { dev := dev, res := .success }

/-- The command aborts and leaves the device as it was. -/
def abort (dev : AtaDevice) : CommandOutcome := .next { dev := dev, res := .abort }

/-! ## The backing store (R12, R210, R237) -/

/-- Whether an access of `k` sectors from sector `lba` on succeeds: the oracle does not fail it and the store has the
sectors (R237). -/
def AtaDevice.storeAnswers (dev : AtaDevice) (lba k : Nat) : Bool :=
  !(dev.ioFaults.headD false) && decide (lba + k ≤ dev.disk.totalSectors)

/-- Load `k` sectors from sector `lba` on into the buffer. -/
def AtaDevice.loadSectors (dev : AtaDevice) (lba k : Nat) : AtaDevice :=
  { dev with
    buffer := bufferPut dev.buffer 0 (Memory.readBytes dev.store (512 * lba) (512 * k)),
    ioFaults := dev.ioFaults.tail }

/-- Store the first `k` sectors of the buffer at sector `lba`. -/
def AtaDevice.storeSectors (d : Drive) (dev : AtaDevice) (lba k : Nat) : AtaDevice :=
  { dev with
    store := Memory.writeBytes dev.store (512 * lba) (bufferBytes d dev.buffer 0 (512 * k)),
    ioFaults := dev.ioFaults.tail }

/-- An operation that begins at sector `lba`. -/
def AtaDevice.beginOperation (dev : AtaDevice) (kind : OpKind) (lba n chunk : Nat) : AtaDevice :=
  { dev with op := some { kind := kind, lba := lba, remaining := n, chunk := chunk } }

/-! ## Reads and writes of sectors (R242 to R245) -/

/-- The sector a request begins at; `none` where the address is invalid or the request runs past the capacity: both abort
(R242, R247). -/
def AtaDevice.requestedSector (dev : AtaDevice) (rec : RegFile) : Option Nat :=
  match dev.sectorAddress rec with
  | none => none
  | some lba => if dev.disk.totalSectors < lba + sectorCount rec then none else some lba

/-- A read in chunks of `chunk` sectors: the first chunk is loaded and a PIO read of it begins (R242, R244). -/
def readCommand (chunk : Nat) (dev : AtaDevice) (rec : RegFile) : CommandOutcome :=
  match dev.requestedSector rec with
  | none => abort dev
  | some lba =>
    let k := min chunk (sectorCount rec)
    if dev.storeAnswers lba k then
      succeed (((dev.beginOperation .read lba (sectorCount rec) chunk).loadSectors lba k).startPio .pioRead (512 * k))
    else .fault .hostIoFailure

/-- A write in chunks of `chunk` sectors: a PIO write of the first chunk begins (R243, R245). -/
def writeCommand (chunk : Nat) (dev : AtaDevice) (rec : RegFile) : CommandOutcome :=
  match dev.requestedSector rec with
  | none => abort dev
  | some lba =>
    succeed ((dev.beginOperation .write lba (sectorCount rec) chunk).startPio .pioWrite
      (512 * min chunk (sectorCount rec)))

/-! ## The effects -/

/-- RECALIBRATE and SEEK (R240). -/
def commandNoOp : CommandEffect := fun _ dev _ => succeed dev

/-- INITIALIZE DRIVE PARAMETERS (R241). -/
def commandInitializeDriveParameters : CommandEffect := fun _ dev rec =>
  if rec.sectorCount = 0 then abort dev
  else
    succeed { dev with
      geometry := some { heads := (rec.driveHead &&& 0x0F).toNat + 1, sectorsPerTrack := rec.sectorCount.toNat } }

/-- READ SECTORS, with and without retry (R242). -/
def commandReadSectors : CommandEffect := fun _ dev rec => readCommand 1 dev rec

/-- WRITE SECTORS, with and without retry (R243). -/
def commandWriteSectors : CommandEffect := fun _ dev rec => writeCommand 1 dev rec

/-- READ MULTIPLE (R244): aborts while multiple mode is off. -/
def commandReadMultiple : CommandEffect := fun _ dev rec =>
  if dev.multipleBlock = 0 then abort dev else readCommand dev.multipleBlock dev rec

/-- WRITE MULTIPLE (R245): aborts while multiple mode is off. -/
def commandWriteMultiple : CommandEffect := fun _ dev rec =>
  if dev.multipleBlock = 0 then abort dev else writeCommand dev.multipleBlock dev rec

/-- SET MULTIPLE MODE (R246). -/
def commandSetMultipleMode : CommandEffect := fun _ dev rec =>
  if dev.disk.maxMultiple < rec.sectorCount.toNat then abort dev
  else succeed { dev with multipleBlock := rec.sectorCount.toNat }

/-- IDENTIFY DRIVE (R250). -/
def commandIdentifyDrive : CommandEffect := fun _ dev _ =>
  let filled : AtaDevice := { dev with buffer := bufferPut dev.buffer 0 (identifyData dev.disk), op := none }
  succeed (filled.startPio .pioRead 512)

/-- SET FEATURES (R251). -/
def commandSetFeatures : CommandEffect := fun _ dev rec =>
  if rec.feature = 0x01 then succeed { dev with pio8 := true }
  else if rec.feature = 0x81 then succeed { dev with pio8 := false }
  else abort dev

/-- Any other opcode (R252). -/
def commandUnknown : CommandEffect := fun _ dev _ => abort dev

/-- The effect of an opcode (R116, R118, R232: "by the rule of `rec.command`"). -/
def commandEffect (b : Byte) : CommandEffect :=
  if b = 0x10 ∨ b = 0x70 then commandNoOp
  else if b = 0x20 ∨ b = 0x21 then commandReadSectors
  else if b = 0x30 ∨ b = 0x31 then commandWriteSectors
  else if b = 0x91 then commandInitializeDriveParameters
  else if b = 0xC4 then commandReadMultiple
  else if b = 0xC5 then commandWriteMultiple
  else if b = 0xC6 then commandSetMultipleMode
  else if b = 0xEC then commandIdentifyDrive
  else if b = 0xEF then commandSetFeatures
  else commandUnknown

/-! ## Taking a command and completing it (R232, R233) -/

/-- The status and error registers with a result in them, and BUSY off (R233, R235). -/
def AtaDevice.mergeResult (dev : AtaDevice) (res : CommandResult) : AtaDevice :=
  { dev with
    regs := { dev.regs with status := mergeStatus dev.regs.status res.status &&& ~~~ataBusy, error := res.error } }

/-- Completion (R233): the merge, and the interrupt unless the result is an error. -/
def AtaDevice.complete (dev : AtaDevice) (res : CommandResult) : AtaDevice :=
  if (dev.mergeResult res).regs.status &&& ataErr = 0 then (dev.mergeResult res).raiseInterrupt
  else dev.mergeResult res

/-- The worker takes the pending command, executes the effect on the snapshot `rec` and completes it: one atomic step
(R232, R233, D26). -/
def State.runCommand (s : State) (d : Drive) (effect : CommandEffect) (rec : RegFile) : Result :=
  match effect d { s.device d with commandRequested := false } rec with
  | .next e => .next (s.commitDevice d (e.dev.complete e.res))
  | .fault f => .fault f
  | .refused r => .refused r

/-- The registers of a device with an opcode in the command register. -/
def State.record (s : State) (d : Drive) (opcode : Byte) : RegFile := { (s.device d).regs with command := opcode }

/-! ## The meanings -/

/-- RECALIBRATE (R240). -/
def execRecalibrate (d : Drive) (s : State) : Result := s.runCommand d commandNoOp (s.record d 0x10)

/-- READ SECTORS (R242). -/
def execReadSectors (d : Drive) (s : State) : Result := s.runCommand d commandReadSectors (s.record d 0x20)

/-- READ SECTORS, NO RETRY (R242). -/
def execReadSectorsNoRetry (d : Drive) (s : State) : Result := s.runCommand d commandReadSectors (s.record d 0x21)

/-- WRITE SECTORS (R243). -/
def execWriteSectors (d : Drive) (s : State) : Result := s.runCommand d commandWriteSectors (s.record d 0x30)

/-- WRITE SECTORS, NO RETRY (R243). -/
def execWriteSectorsNoRetry (d : Drive) (s : State) : Result := s.runCommand d commandWriteSectors (s.record d 0x31)

/-- SEEK (R240). -/
def execSeek (d : Drive) (s : State) : Result := s.runCommand d commandNoOp (s.record d 0x70)

/-- INITIALIZE DRIVE PARAMETERS (R241). -/
def execInitializeDriveParameters (d : Drive) (s : State) : Result :=
  s.runCommand d commandInitializeDriveParameters (s.record d 0x91)

/-- READ MULTIPLE (R244). -/
def execReadMultiple (d : Drive) (s : State) : Result := s.runCommand d commandReadMultiple (s.record d 0xC4)

/-- WRITE MULTIPLE (R245). -/
def execWriteMultiple (d : Drive) (s : State) : Result := s.runCommand d commandWriteMultiple (s.record d 0xC5)

/-- SET MULTIPLE MODE (R246). -/
def execSetMultipleMode (d : Drive) (s : State) : Result := s.runCommand d commandSetMultipleMode (s.record d 0xC6)

/-- IDENTIFY DRIVE (R250). -/
def execIdentifyDrive (d : Drive) (s : State) : Result := s.runCommand d commandIdentifyDrive (s.record d 0xEC)

/-- SET FEATURES (R251). -/
def execSetFeatures (d : Drive) (s : State) : Result := s.runCommand d commandSetFeatures (s.record d 0xEF)

/-- Any other opcode (R252). -/
def execAtaUnknownCommand (d : Drive) (opcode : Byte) (s : State) : Result :=
  s.runCommand d commandUnknown (s.record d opcode)

end Sys2Proof.Machine
end

