-- ==== Sys2Proof/Machine/Worker.lean ====
section
/-! DEFINITION. The worker of an ATA device (spec/42_ata_device.md R230 to R236). Which step a worker takes is decided
by its mailbox (R230); the meaning of a worker row is that step (notes/assumptions/20.md, 22.md). -/
namespace Sys2Proof.Machine

/-- `WorkerStop` (R236): from here on the worker takes no step. -/
def AtaDevice.workerStop (dev : AtaDevice) : AtaDevice := { dev with stopped := true }

/-- `WorkerReset` (R231, D24): no interrupt is raised; `pio8`, `multipleBlock` and `geometry` stay. -/
def AtaDevice.workerReset (dev : AtaDevice) : AtaDevice :=
  let reset : AtaDevice :=
    { dev with
      resetRequested := false, commandRequested := false, continueRequested := false, regs := RegFile.powerUp,
      xfer := .idle, cursor := 0, length := 0, op := none }
  reset.lowerInterrupt

/-- `WorkerContinue` for a read (R234). -/
def AtaDevice.continueRead (dev : AtaDevice) (op : Operation) : Host.Outcome AtaDevice Fault Refusal :=
  let k := min op.chunk op.remaining
  if dev.storeAnswers op.lba k then
    .next ((({ dev with continueRequested := false }.loadSectors op.lba k).startPio .pioRead (512 * k)).complete .success)
  else .fault .hostIoFailure

/-- `WorkerContinue` for a write (R235): another chunk is asked for with DRQ and an interrupt; the flush of the last chunk
raises none (D27). -/
def AtaDevice.continueWrite (d : Drive) (dev : AtaDevice) (op : Operation) : Host.Outcome AtaDevice Fault Refusal :=
  let k := dev.length / 512
  if dev.storeAnswers op.lba k then
    let flushed := AtaDevice.storeSectors d { dev with continueRequested := false } op.lba k
    match op.advance k with
    | some next =>
      .next ((({ flushed with op := some next }).startPio .pioWrite (512 * min next.chunk next.remaining)).complete
        .success)
    | none => .next ({ flushed with op := none }.mergeResult .success)
  else .fault .hostIoFailure

/-- Store what a worker step made of its device, or stop as it does. -/
def State.finishWorker (s : State) (d : Drive) (o : Host.Outcome AtaDevice Fault Refusal) : Result :=
  match o with
  | .next dev => .next (s.commitDevice d dev)
  | .fault f => .fault f
  | .refused r => .refused r

/-- `WorkerCommand` (R232): the command register of the snapshot says what is executed. -/
def State.workerCommand (s : State) (d : Drive) : Result :=
  s.runCommand d (commandEffect (s.device d).regs.command) (s.device d).regs

/-- `WorkerContinue` (R234, R235): by the kind of the operation in progress; with none in progress no rule applies and
the worker waits (notes/assumptions/20.md). -/
def State.workerContinue (s : State) (d : Drive) : Result :=
  match (s.device d).op with
  | none => .next s
  | some op =>
    match op.kind with
    | .read => s.finishWorker d ((s.device d).continueRead op)
    | .write => s.finishWorker d (AtaDevice.continueWrite d (s.device d) op)

/-- The step the worker takes: the enabled one (R230), or none. -/
def State.workerStep (s : State) (d : Drive) : Result :=
  match (s.device d).workerKind with
  | none => .next s
  | some .stop => .next (s.commitDevice d (s.device d).workerStop)
  | some .reset => .next (s.commitDevice d (s.device d).workerReset)
  | some .command => s.workerCommand d
  | some .continueRead => s.workerContinue d
  | some .continueWrite => s.workerContinue d

/-! ## The meanings -/

/-- `WorkerStop` (R236). -/
def execWorkerStop (d : Drive) (s : State) : Result := s.workerStep d

/-- `WorkerReset` (R231). -/
def execWorkerReset (d : Drive) (s : State) : Result := s.workerStep d

/-- `WorkerCommand` (R232, R233). -/
def execWorkerCommand (d : Drive) (s : State) : Result := s.workerStep d

/-- `WorkerContinue`, read (R234). -/
def execWorkerContinueRead (d : Drive) (s : State) : Result := s.workerStep d

/-- `WorkerContinue`, write (R235). -/
def execWorkerContinueWrite (d : Drive) (s : State) : Result := s.workerStep d

end Sys2Proof.Machine
end

