-- ==== Sys2Proof/Machine/Construction.lean ====
section
/-! DEFINITION. What the configuration host does to the devices themselves (spec/00_scope.md R7 d): it destroys an ATA
device and joins its worker (spec/10_state.md R45), and constructs ATA devices, PICs and host memories with the values of
R54 and R55. None of these is a row of the opcode table (notes/assumptions/20.md, 31.md). -/
namespace Sys2Proof.Machine

/-! ## Destruction (R45, R236) -/

/-- The stop flag is set under the device's lock (R45). -/
def State.requestStop (s : State) (d : Drive) : State := s.setDevice d { s.device d with stopRequested := true }

/-- Destruction of device `d`: the stop is requested, and the agent goes on with the join (R45, R236). The
spec is silent on a device that is already destroyed: there the stop flag is set again and the join is done at once, the
worker having nothing left to do (DESIGN CHOICE, notes/assumptions/20.md). -/
def State.teardown (s : State) (d : Drive) : State := (s.requestStop d).pushFollow [.join d]

/-- The worker of device `d` has ended: it has taken `WorkerStop` and has nothing left of an earlier step to do. -/
def State.workerEnded (s : State) (d : Drive) : Bool :=
  (s.device d).stopped && (s.thread (.worker d)).follow.isEmpty

/-- The join (R45, R236): done once the worker has ended; until then the agent waits, with the join still to do. -/
def State.joinWorker (s : State) (d : Drive) : State := if s.workerEnded d then s else s.pushFollow [.join d]

/-! ## Construction (R7 d, R54, R55) -/

/-- A new ATA device on the disk of the one that was destroyed, with a worker of its own (R45, R55). -/
def AtaDevice.rebuilt (old : AtaDevice) : AtaDevice :=
  { AtaDevice.constructed old.disk with store := old.store, ioFaults := old.ioFaults }

/-- Construction of device `d` where the old one has been destroyed; the demux sees its interrupt output (R273). -/
def State.constructDevice (s : State) (d : Drive) : Result :=
  if s.workerEnded d then .next (s.commitDevice d (s.device d).rebuilt)
  else .refused (.notConstructible (.deviceAlive d))

/-- The PICs with a new one after them, whose number is answered. -/
def State.addPic (s : State) (old : List Pic) : State :=
  (s.setPics (old ++ [Pic.constructed noSecondaries])).answerHandle s.pics.length

/-- PIC `q` with PIC `k` chained on line `n` (R28). -/
def Pic.chain (q : Pic) (n : Fin 8) (k : Nat) : Pic := { q with secondary := q.secondary.set n (some k) }

/-- Construction of a PIC with nothing chained on it (R54). `wire`: the line of an existing PIC that its output drives, whose
entry in the table of secondaries names it from here on (R28, D40); without one it is an outermost PIC (R48). -/
def State.constructPic (s : State) (wire : Option LineRef) : Result :=
  match wire with
  | none => .next (s.addPic s.pics)
  | some l =>
    s.withPic l.pic fun q =>
      if (q.secondary.get l.line).isSome then .refused (.notConstructible (.lineTaken l))
      else .next (s.addPic (s.pics.set l.pic (q.chain l.line s.pics.length)))

/-- Construction of a handler with `size` bytes of host memory and register words of `word` bytes (R71, R130). -/
def State.constructMemory (s : State) (size permissions word : Nat) : Result :=
  if 0 < size ∧ sizeOk word then
    .next ((s.setHostBlocks (s.hostBlocks ++ [HostBlock.constructed size permissions word])).answerHandle
      s.hostBlocks.length)
  else .refused (.notConstructible (.memoryShape size word))

end Sys2Proof.Machine
end

