-- ==== Sys2Proof/Machine/Demux.lean ====
section
/-! DEFINITION. The ATADemux (spec/43_ata_demux_xtide.md R270 to R276). Each operation is one atomic step that contains
the device step it forwards to (R270), and ends in `updateMux` (R273). -/
namespace Sys2Proof.Machine

/-- Select a device (R272). -/
def State.selectDevice (s : State) (d : Drive) : State := s.setMux { s.mux with selected := d }

/-- The shadow bits after a Device Control write (R274, D32): only that of the selected device follows the byte. -/
def Demux.shadow (m : Demux) (b : Byte) : Demux :=
  match m.selected with
  | .master => { m with nIENMaster := b &&& controlNien != 0 }
  | .slave => { m with nIENSlave := b &&& controlNien != 0 }

/-- The shadow bit of a device (R46). -/
def Demux.nIEN (m : Demux) : Drive → Bool
  | .master => m.nIENMaster
  | .slave => m.nIENSlave

/-- The byte device `d` receives in the broadcast: its own shadow bit and the shared reset bit (R274). -/
def Demux.controlByte (m : Demux) (d : Drive) (b : Byte) : Byte :=
  (if m.nIEN d then controlNien else 0x00) ||| (b &&& controlSrst)

/-- Drive/Head write (R272): the selection first, then the byte at the newly selected device, then `updateMux`. -/
def State.muxDriveHead (s : State) (b : Byte) : Result :=
  (s.selectDevice (selectedDrive b)).ataWrite (selectedDrive b) 6 (byteOnBus b)

/-- Command-block write (R271, R272). -/
def State.muxWrite (s : State) (i : Nat) (v : Half) : Result :=
  if i = 6 then s.muxDriveHead (lowByte v) else s.ataWrite s.mux.selected i v

/-- Command-block read (R271). -/
def State.muxRead (s : State) (i : Nat) : Result := s.ataRead s.mux.selected i

/-- Device Control write (R274). -/
def State.muxDeviceControl (s : State) (b : Byte) : State :=
  let m := s.mux.shadow b
  (((s.setMux m).setDevice .master (s.master.deviceControl (m.controlByte .master b))).setDevice .slave
    (s.slave.deviceControl (m.controlByte .slave b))).updateMux

/-- Control-block read (R275). -/
def State.muxAltStatus (s : State) : State := s.answer [(s.device s.mux.selected).regs.status] []

/-! ## The meanings -/

/-- Forwarding (R271). -/
def execMuxForward (i : Nat) (acc : Access) (s : State) : Result :=
  match acc with
  | .read => s.muxRead i
  | .write v => s.muxWrite i v

/-- Drive/Head write (R272). -/
def execMuxDriveHeadW (b : Byte) (s : State) : Result := s.muxDriveHead b

/-- Device Control write (R274). -/
def execMuxDeviceControlW (b : Byte) (s : State) : Result := .next (s.muxDeviceControl b)

/-- Control-block read (R275). -/
def execMuxAltStatusR (s : State) : Result := .next s.muxAltStatus

/-- A device's notification (R276): `updateMux`, whichever device it came from. -/
def execMuxNotify (_d : Drive) (s : State) : Result := .next s.updateMux

end Sys2Proof.Machine
end

