-- ==== Sys2Proof/Machine/Lines.lean ====
section
/-! DEFINITION. Line assertion and the acknowledge cycle (spec/41_pic.md R178, R179, R183 to R186): calls, with their full
meaning in all five states of the command machine (spec/30_encoding.md R95). Which rule a call follows is decided by the
PIC at the call (notes/assumptions/22.md). -/
namespace Sys2Proof.Machine

/-- `setInterruptLineAsserted(n, a)` on a level-triggered line (R178): IRR and the edge latch follow the line. -/
def Pic.levelLine (q : Pic) (n : Fin 8) (a : Bool) : Pic :=
  { q with irr := setLineBit q.irr n a, edge := setLineBit q.edge n a }

/-- `setInterruptLineAsserted(n, a)` on an edge-triggered line (R179): a rising edge sets the IRR bit. -/
def Pic.edgeLine (q : Pic) (n : Fin 8) (a : Bool) : Pic :=
  { q with
    irr := if a && !q.edge.getLsbD n.val then setLineBit q.irr n true else q.irr,
    edge := setLineBit q.edge n a }

/-- `setInterruptLineAsserted(n, a)` on PIC `p`, by the trigger mode of the line at the call (R31). -/
def State.setLine (s : State) (p : Nat) (n : Fin 8) (a : Bool) : Result :=
  s.withPic p fun q => .next (s.commitPic p (if q.level n then q.levelLine n a else q.edgeLine n a))

/-- Line assertion, level-triggered (R178). -/
def execLineLevel (p : Nat) (n : Fin 8) (a : Bool) (s : State) : Result := s.setLine p n a

/-- Line assertion, edge-triggered (R179). -/
def execLineEdge (p : Nat) (n : Fin 8) (a : Bool) (s : State) : Result := s.setLine p n a

/-- Acknowledge with a line of the PIC's own unserviced (R183, R185). -/
def execInta (p : Nat) (s : State) : Result := s.acknowledge p

/-- Acknowledge with nothing unserviced (R184). -/
def execIntaSpurious (p : Nat) (s : State) : Result := s.acknowledge p

/-- Acknowledge where the selected line has a secondary PIC (R186). -/
def execIntaCascade (p : Nat) (s : State) : Result := s.acknowledge p

end Sys2Proof.Machine
end

