-- ==== Sys2Proof/Machine/PicPorts.lean ====
section
/-! DEFINITION. The port accesses of the PIC and of its ELCR (spec/41_pic.md R161 to R177). A row's meaning is its access
performed in the state at hand: in the row's own states its rule, in another state what R94 gives that access there
(notes/assumptions/22.md). -/
namespace Sys2Proof.Machine

/-! ## The words of the command machine -/

/-- ICW1 (R162): capture, clear the mask and the edge latch, start the handshake. -/
def Pic.takeIcw1 (q : Pic) (b : Byte) : Pic :=
  { q with icw1 := b, ocw1 := 0x00, edge := 0x00, fsm := .waitingForIcw2 }

/-- Where the handshake goes once an ICW3 has been sent or skipped (R163, R165). -/
def Pic.afterIcw3 (q : Pic) : PicFsm := if q.icw1 &&& icw1Ic4 = 0 then .idle else .waitingForIcw4

/-- ICW2 (R163). -/
def Pic.takeIcw2 (q : Pic) (b : Byte) : Pic :=
  { q with icw2 := b, fsm := if q.icw1 &&& icw1Sngl = 0 then .waitingForIcw3 else q.afterIcw3 }

/-- ICW3 (R165). -/
def Pic.takeIcw3 (q : Pic) (b : Byte) : Pic := { q with icw3 := b, fsm := q.afterIcw3 }

/-- ICW4 (R166). -/
def Pic.takeIcw4 (q : Pic) (b : Byte) : Pic := { q with icw4 := b, fsm := .idle }

/-- OCW1 (R167). -/
def Pic.takeOcw1 (q : Pic) (b : Byte) : Pic := { q with ocw1 := b }

/-- OCW3 without the special-mask bit (R170). -/
def Pic.takeOcw3 (q : Pic) (b : Byte) : Pic :=
  { q with ocw3 := b, fsm := if b &&& ocw3Poll = 0 then q.fsm else .poll }

/-! ## Accesses by state (R94) -/

/-- OCW2 and OCW3 have a meaning in `Idle` only (R172). -/
def State.inIdle (s : State) (p : Nat) (k : Pic → Result) : Result :=
  s.withPic p fun q =>
    if q.fsm = .idle then k q else .refused (.picUnspecified .command .write q.fsm)

/-- ICW1 at PIC `p`, in every state (R162). -/
def State.picIcw1 (s : State) (p : Nat) (b : Byte) : Result :=
  s.withPic p fun q => .next (s.commitPic p (q.takeIcw1 b))

/-- Non-specific EOI at PIC `p` (R168). -/
def State.picEoi (s : State) (p : Nat) : Result := s.inIdle p fun q => .next (s.commitPic p q.endOfInterrupt)

/-- Specific EOI of line `n` at PIC `p` (R169). -/
def State.picEoiAt (s : State) (p : Nat) (n : Fin 8) : Result :=
  s.inIdle p fun q => .next (s.commitPic p (q.endOfInterruptAt n))

/-- OCW3 at PIC `p` (R170): the special-mask bit trips the assertion before anything is stored. -/
def State.picOcw3 (s : State) (p : Nat) (b : Byte) : Result :=
  s.inIdle p fun q =>
    if b &&& ocw3Smm = 0 then .next (s.setPic p (q.takeOcw3 b)) else .fault .picUnimplementedMode

/-- A data-port write of `b` at PIC `p` (R93, fourth row of R94). -/
def State.picDataWrite (s : State) (p : Nat) (b : Byte) : Result :=
  s.withPic p fun q =>
    match q.fsm with
    | .idle => .next (s.commitPic p (q.takeOcw1 b))
    | .waitingForIcw2 => .next (s.setPic p (q.takeIcw2 b))
    | .waitingForIcw3 => .next (s.setPic p (q.takeIcw3 b))
    | .waitingForIcw4 => .next (s.setPic p (q.takeIcw4 b))
    | .poll => .refused (.picUnspecified .data .write .poll)

/-- A data-port read at PIC `p` (fifth row of R94): the poll byte in `Poll` (R173), the mask elsewhere (R174). -/
def State.picDataRead (s : State) (p : Nat) : Result :=
  s.withPic p fun q =>
    if q.fsm = .poll then .next ((s.setPic p { q with fsm := .idle }).answer [q.pollByte] [])
    else .next (s.answer [q.ocw1] [])

/-- A command-port read at PIC `p` (last row of R94). -/
def State.picCommandRead (s : State) (p : Nat) : Result :=
  s.withPic p fun q =>
    if q.fsm = .poll then .refused (.picUnspecified .command .read .poll)
    else .next (s.answer [q.readSelected] [])

/-- The access that the spec leaves without a meaning (R172), with the state it was made in. -/
def State.picUnspecified (s : State) (p : Nat) (port : PicPort) (dir : Direction) : Result :=
  s.withPic p fun q => .refused (.picUnspecified port dir q.fsm)

/-! ## The meanings -/

/-- ICW1 (R162). -/
def execIcw1 (p : Nat) (b : Byte) (s : State) : Result := s.picIcw1 p b

/-- OCW2, non-specific EOI (R168); bits 2:0 are ignored. -/
def execOcw2Eoi (p : Nat) (_b : Byte) (s : State) : Result := s.picEoi p

/-- OCW2, specific EOI (R169); bits 2:0 name the line. -/
def execOcw2Seoi (p : Nat) (b : Byte) (s : State) : Result := s.picEoiAt p (b.truncate 3).toFin

/-- OCW2 with `R SL EOI = 0 1 0` (R171): no effect. -/
def execOcw2NopSl (p : Nat) (_b : Byte) (s : State) : Result := s.inIdle p fun _ => .next s

/-- OCW2 with `R SL EOI = 0 0 0` (R171): no effect. -/
def execOcw2Nop0 (p : Nat) (_b : Byte) (s : State) : Result := s.inIdle p fun _ => .next s

/-- OCW2, the rotate forms (R171): not implemented, the assertion trips. -/
def execOcw2Rotate (p : Nat) (_b : Byte) (s : State) : Result := s.inIdle p fun _ => .fault .picUnimplementedMode

/-- OCW3 without POLL (R170). -/
def execOcw3 (p : Nat) (b : Byte) (s : State) : Result := s.picOcw3 p b

/-- OCW3 with POLL (R170). -/
def execOcw3Poll (p : Nat) (b : Byte) (s : State) : Result := s.picOcw3 p b

/-- OCW3 with the special-mask bit (R170): the assertion trips, the byte is not stored. -/
def execOcw3Smm (p : Nat) (_b : Byte) (s : State) : Result := s.inIdle p fun _ => .fault .picUnimplementedMode

/-- A command-port write without the ICW1 marker outside `Idle` (R172). -/
def execPicCmdWriteUnspec (p : Nat) (_b : Byte) (s : State) : Result := s.picUnspecified p .command .write

/-- ICW2 (R163). -/
def execIcw2 (p : Nat) (b : Byte) (s : State) : Result := s.picDataWrite p b

/-- ICW3 (R165). -/
def execIcw3 (p : Nat) (b : Byte) (s : State) : Result := s.picDataWrite p b

/-- ICW4 (R166). -/
def execIcw4 (p : Nat) (b : Byte) (s : State) : Result := s.picDataWrite p b

/-- OCW1 (R167). -/
def execOcw1 (p : Nat) (b : Byte) (s : State) : Result := s.picDataWrite p b

/-- A data-port write in `Poll` (R172). -/
def execPicDataWriteUnspec (p : Nat) (_b : Byte) (s : State) : Result := s.picUnspecified p .data .write

/-- The poll read (R173). -/
def execPollRead (p : Nat) (s : State) : Result := s.picDataRead p

/-- The mask read (R174). -/
def execMaskRead (p : Nat) (s : State) : Result := s.picDataRead p

/-- The IRR or ISR read (R175). -/
def execIrrIsrRead (p : Nat) (s : State) : Result := s.picCommandRead p

/-- A command-port read in `Poll` (R172). -/
def execPicCmdReadUnspec (p : Nat) (s : State) : Result := s.picUnspecified p .command .read

/-- An access at an offset that is no port of a PIC or of an ELCR (R161, R176): a write is ignored, a read returns 0xFF.
The rule reads nothing of the PIC, so the answer is the same for a PIC that does not exist, where every other port access is
refused (DESIGN CHOICE, notes/assumptions/16.md). -/
def execPicBadPort (_dev : PortDevice) (_off : Nat) (acc : ByteAccess) (s : State) : Result :=
  match acc with
  | .read => .next (s.answer [0xFF] [.picBadPort])
  | .write _ => .next (s.answer [] [.picBadPort])

/-- ELCR write (R176): nothing is re-sampled. -/
def execElcrWrite (p : Nat) (b : Byte) (s : State) : Result :=
  s.withPic p fun q => .next (s.setPic p { q with elcr := b })

/-- ELCR read (R177). -/
def execElcrRead (p : Nat) (s : State) : Result := s.withPic p fun q => .next (s.answer [q.elcr] [])

end Sys2Proof.Machine
end

