-- ==== Sys2Proof/Machine/Pseudo.lean ====
section
/-! DEFINITION. The pseudo-operations (spec/30_encoding.md R126): sequences of events of one agent. The first event is
performed at once, the others are the agent's next steps. -/
namespace Sys2Proof.Machine

/-- The events of `PICINIT` after its ICW1 (R126). -/
def initEvents (p : Nat) (i1 i2 i3 i4 : Byte) : List Event :=
  .portWrite (.pic p) 1 i2 ::
    ((if i1 &&& icw1Sngl = 0 then [.portWrite (.pic p) 1 i3] else []) ++
      (if i1 &&& icw1Ic4 = 0 then [] else [.portWrite (.pic p) 1 i4]))

/-- `PICINIT p, i1, i2, i3, i4`. -/
def execPicInit (p : Nat) (i1 i2 i3 i4 : Byte) (s : State) : Result :=
  (s.pushFollow (initEvents p i1 i2 i3 i4)).picIcw1 p i1

/-- `EOI p` = `PICW p.cmd, 0x20`. -/
def execEoi (p : Nat) (s : State) : Result := s.picEoi p

/-- `SEOI p, n` = `PICW p.cmd, 0x60 + n`. -/
def execSeoi (p : Nat) (n : Fin 8) (s : State) : Result := s.picEoiAt p n

/-- `POLL p` = `PICW p.cmd, 0x0C; PICR p.data`. -/
def execPoll (p : Nat) (s : State) : Result := (s.pushFollow [.portRead (.pic p) 1]).picOcw3 p 0x0C

/-- `MASK p, m` = `PICW p.data, m`, meant for state `Idle`; elsewhere it is the data-port write that it is (R342). -/
def execMask (p : Nat) (m : Byte) (s : State) : Result := s.picDataWrite p m

end Sys2Proof.Machine
end

