-- ==== Sys2Proof/Machine/Xtide.lean ====
section
/-! DEFINITION. The XTIDE window (spec/43_ata_demux_xtide.md R280 to R288): the 16-bit register bus behind 8-bit ports. A
row's meaning is the byte access at its offset, as `XTIDE_MAP` of the state decodes it (R280, notes/assumptions/22.md). One
access is one step: the demux operation it calls is part of it (R270, notes/assumptions/11.md). -/
namespace Sys2Proof.Machine

/-- An entry of the map; an offset not listed is unmapped (R123). -/
def findPort : List (Nat × XtPort) → Nat → XtPort
  | [], _ => .unmapped
  | (k, p) :: t, o => if k = o then p else findPort t o

/-- `XTIDE_MAP(o)` (R123). -/
def State.xtAt (s : State) (o : Nat) : XtPort := findPort s.xtMap o

/-- The word the selected device returns for a data read (R281): two bytes from the data register, a status byte
zero-extended while BUSY. -/
def DeviceReply.word (r : DeviceReply) : Half := wordOf (r.bytes.headD 0x00) (r.bytes.tail.headD 0x00)

/-- A read of register `i` of the selected device of which only the low byte is returned (R281, R285). -/
def State.xtReadLow (s : State) (i : Nat) : State :=
  let r := AtaDevice.readIndex s.mux.selected (s.device s.mux.selected) i
  s.finishAccess s.mux.selected { r with bytes := [lowByte r.word] }

/-- Data read, low byte (R281): the word goes to the latch, its low byte is returned. -/
def State.xtDataLow (s : State) : State :=
  (s.setLatch (AtaDevice.readIndex s.mux.selected (s.device s.mux.selected) 0).word).xtReadLow 0

/-- A byte read at offset `o` of the window (R281, R282, R285, R286, R287). -/
def State.xtRead (s : State) (o : Nat) : Result :=
  match s.xtAt o with
  | .commandBlock i => .next (if i = 0 then s.xtDataLow else s.xtReadLow i.val)
  | .controlBlock => .next s.muxAltStatus
  | .dataHigh => .next (s.answer [highByte s.latch] [])
  | .unmapped => .next (s.answer [0xFF] [.ataBadRegister])

/-- A byte write at offset `o` of the window (R283, R284, R285, R286, R287). -/
def State.xtWrite (s : State) (o : Nat) (b : Byte) : Result :=
  match s.xtAt o with
  | .commandBlock i => s.muxWrite i.val (if i = 0 then wordOf b (highByte s.latch) else byteOnBus b)
  | .controlBlock => .next (s.muxDeviceControl b)
  | .dataHigh => .next (s.setLatch (wordOf (lowByte s.latch) b))
  | .unmapped => .next (s.answer [] [.ataBadRegister])

/-- A byte access at offset `o` of the window. -/
def State.xtAccess (s : State) (o : Nat) (acc : ByteAccess) : Result :=
  match acc with
  | .read => s.xtRead o
  | .write b => s.xtWrite o b

/-! ## The meanings -/

/-- Data read, low byte (R281). -/
def execXtDataLowR (o : Nat) (s : State) : Result := s.xtRead o

/-- Data read, high byte (R282). -/
def execXtDataHighR (o : Nat) (s : State) : Result := s.xtRead o

/-- Data write, high byte (R283). -/
def execXtDataHighW (o : Nat) (b : Byte) (s : State) : Result := s.xtWrite o b

/-- Data write, low byte (R284). -/
def execXtDataLowW (o : Nat) (b : Byte) (s : State) : Result := s.xtWrite o b

/-- Other command-block registers (R285). -/
def execXtReg (o : Nat) (acc : ByteAccess) (s : State) : Result := s.xtAccess o acc

/-- Control block (R286). -/
def execXtControl (o : Nat) (acc : ByteAccess) (s : State) : Result := s.xtAccess o acc

/-- Unmapped offset (R287). -/
def execXtUnmapped (o : Nat) (acc : ByteAccess) (s : State) : Result := s.xtAccess o acc

end Sys2Proof.Machine
end

