-- ==== Sys2Proof/Machine/Dispatch.lean ====
section
/-! DEFINITION. One arm per constructor of Instr: each calls the one meaning of its row. -/
namespace Sys2Proof.Machine

def exec (i : Instr) (s : State) : Host.Outcome State Fault Refusal :=
  match i with
  | .icw1 p b => Sys2Proof.Machine.execIcw1 p b s
  | .ocw2Eoi p b => Sys2Proof.Machine.execOcw2Eoi p b s
  | .ocw2Seoi p b => Sys2Proof.Machine.execOcw2Seoi p b s
  | .ocw2NopSl p b => Sys2Proof.Machine.execOcw2NopSl p b s
  | .ocw2Nop0 p b => Sys2Proof.Machine.execOcw2Nop0 p b s
  | .ocw2Rotate p b => Sys2Proof.Machine.execOcw2Rotate p b s
  | .ocw3 p b => Sys2Proof.Machine.execOcw3 p b s
  | .ocw3Poll p b => Sys2Proof.Machine.execOcw3Poll p b s
  | .ocw3Smm p b => Sys2Proof.Machine.execOcw3Smm p b s
  | .picCmdWriteUnspec p b => Sys2Proof.Machine.execPicCmdWriteUnspec p b s
  | .icw2 p b => Sys2Proof.Machine.execIcw2 p b s
  | .icw3 p b => Sys2Proof.Machine.execIcw3 p b s
  | .icw4 p b => Sys2Proof.Machine.execIcw4 p b s
  | .ocw1 p b => Sys2Proof.Machine.execOcw1 p b s
  | .picDataWriteUnspec p b => Sys2Proof.Machine.execPicDataWriteUnspec p b s
  | .pollRead p => Sys2Proof.Machine.execPollRead p s
  | .maskRead p => Sys2Proof.Machine.execMaskRead p s
  | .irrIsrRead p => Sys2Proof.Machine.execIrrIsrRead p s
  | .picCmdReadUnspec p => Sys2Proof.Machine.execPicCmdReadUnspec p s
  | .picBadPort dev off acc => Sys2Proof.Machine.execPicBadPort dev off acc s
  | .elcrWrite p b => Sys2Proof.Machine.execElcrWrite p b s
  | .elcrRead p => Sys2Proof.Machine.execElcrRead p s
  | .lineLevel p n a => Sys2Proof.Machine.execLineLevel p n a s
  | .lineEdge p n a => Sys2Proof.Machine.execLineEdge p n a s
  | .inta p => Sys2Proof.Machine.execInta p s
  | .intaSpurious p => Sys2Proof.Machine.execIntaSpurious p s
  | .intaCascade p => Sys2Proof.Machine.execIntaCascade p s
  | .picInit p i1 i2 i3 i4 => Sys2Proof.Machine.execPicInit p i1 i2 i3 i4 s
  | .eoi p => Sys2Proof.Machine.execEoi p s
  | .seoi p n => Sys2Proof.Machine.execSeoi p n s
  | .poll p => Sys2Proof.Machine.execPoll p s
  | .mask p m => Sys2Proof.Machine.execMask p m s
  | .splitWrite h a sz v w => Sys2Proof.Machine.execSplitWrite h a sz v w s
  | .splitRead h a sz w => Sys2Proof.Machine.execSplitRead h a sz w s
  | .reg sp base limit h off => Sys2Proof.Machine.execReg sp base limit h off s
  | .release k op => Sys2Proof.Machine.execRelease k op s
  | .unreg sp r => Sys2Proof.Machine.execUnreg sp r s
  | .resolve sp a => Sys2Proof.Machine.execResolve sp a s
  | .inPort sp a sz => Sys2Proof.Machine.execInPort sp a sz s
  | .outPort sp a sz v => Sys2Proof.Machine.execOutPort sp a sz v s
  | .establishMappings sp engine base limit => Sys2Proof.Machine.execEstablishMappings sp engine base limit s
  | .removeMappings sp => Sys2Proof.Machine.execRemoveMappings sp s
  | .ataFeatureW d b => Sys2Proof.Machine.execAtaFeatureW d b s
  | .ataSectorCountW d b => Sys2Proof.Machine.execAtaSectorCountW d b s
  | .ataSectorNumberW d b => Sys2Proof.Machine.execAtaSectorNumberW d b s
  | .ataCylinderLowW d b => Sys2Proof.Machine.execAtaCylinderLowW d b s
  | .ataCylinderHighW d b => Sys2Proof.Machine.execAtaCylinderHighW d b s
  | .ataDriveHeadW d b => Sys2Proof.Machine.execAtaDriveHeadW d b s
  | .ataGatedW d idx b => Sys2Proof.Machine.execAtaGatedW d idx b s
  | .ataCommandW d b => Sys2Proof.Machine.execAtaCommandW d b s
  | .ataDataW d v => Sys2Proof.Machine.execAtaDataW d v s
  | .ataDataWIdle d v => Sys2Proof.Machine.execAtaDataWIdle d v s
  | .ataDataR d => Sys2Proof.Machine.execAtaDataR d s
  | .ataDataRIdle d => Sys2Proof.Machine.execAtaDataRIdle d s
  | .ataErrorR d => Sys2Proof.Machine.execAtaErrorR d s
  | .ataSectorCountR d => Sys2Proof.Machine.execAtaSectorCountR d s
  | .ataSectorNumberR d => Sys2Proof.Machine.execAtaSectorNumberR d s
  | .ataCylinderLowR d => Sys2Proof.Machine.execAtaCylinderLowR d s
  | .ataCylinderHighR d => Sys2Proof.Machine.execAtaCylinderHighR d s
  | .ataDriveHeadR d => Sys2Proof.Machine.execAtaDriveHeadR d s
  | .ataStatusR d => Sys2Proof.Machine.execAtaStatusR d s
  | .ataBusyR d idx => Sys2Proof.Machine.execAtaBusyR d idx s
  | .ataBadIndex d blk idx acc => Sys2Proof.Machine.execAtaBadIndex d blk idx acc s
  | .ataAltStatusR d => Sys2Proof.Machine.execAtaAltStatusR d s
  | .ataDeviceControlW d b => Sys2Proof.Machine.execAtaDeviceControlW d b s
  | .recalibrate d => Sys2Proof.Machine.execRecalibrate d s
  | .readSectors d => Sys2Proof.Machine.execReadSectors d s
  | .readSectorsNoRetry d => Sys2Proof.Machine.execReadSectorsNoRetry d s
  | .writeSectors d => Sys2Proof.Machine.execWriteSectors d s
  | .writeSectorsNoRetry d => Sys2Proof.Machine.execWriteSectorsNoRetry d s
  | .seek d => Sys2Proof.Machine.execSeek d s
  | .initializeDriveParameters d => Sys2Proof.Machine.execInitializeDriveParameters d s
  | .readMultiple d => Sys2Proof.Machine.execReadMultiple d s
  | .writeMultiple d => Sys2Proof.Machine.execWriteMultiple d s
  | .setMultipleMode d => Sys2Proof.Machine.execSetMultipleMode d s
  | .identifyDrive d => Sys2Proof.Machine.execIdentifyDrive d s
  | .setFeatures d => Sys2Proof.Machine.execSetFeatures d s
  | .ataUnknownCommand d opcode => Sys2Proof.Machine.execAtaUnknownCommand d opcode s
  | .workerStop d => Sys2Proof.Machine.execWorkerStop d s
  | .workerReset d => Sys2Proof.Machine.execWorkerReset d s
  | .workerCommand d => Sys2Proof.Machine.execWorkerCommand d s
  | .workerContinueRead d => Sys2Proof.Machine.execWorkerContinueRead d s
  | .workerContinueWrite d => Sys2Proof.Machine.execWorkerContinueWrite d s
  | .muxForward idx acc => Sys2Proof.Machine.execMuxForward idx acc s
  | .muxDriveHeadW b => Sys2Proof.Machine.execMuxDriveHeadW b s
  | .muxDeviceControlW b => Sys2Proof.Machine.execMuxDeviceControlW b s
  | .muxAltStatusR => Sys2Proof.Machine.execMuxAltStatusR s
  | .muxNotify d => Sys2Proof.Machine.execMuxNotify d s
  | .xtDataLowR o => Sys2Proof.Machine.execXtDataLowR o s
  | .xtDataHighR o => Sys2Proof.Machine.execXtDataHighR o s
  | .xtDataHighW o b => Sys2Proof.Machine.execXtDataHighW o b s
  | .xtDataLowW o b => Sys2Proof.Machine.execXtDataLowW o b s
  | .xtReg o acc => Sys2Proof.Machine.execXtReg o acc s
  | .xtControl o acc => Sys2Proof.Machine.execXtControl o acc s
  | .xtUnmapped o acc => Sys2Proof.Machine.execXtUnmapped o acc s

end Sys2Proof.Machine
end

