-- ==== Sys2Proof/Machine/Fetch.lean ====
section
/-! DEFINITION. Which agent takes the next step, which event it performs and how that event is decoded. The block fetches
no instructions (spec/10_state.md R50): an operation is an event that an agent issues (spec/00_scope.md R6, R7). An agent
finishes the operation it is in before it begins another (spec/20_memory.md R67, R74, R76). -/
namespace Sys2Proof.Machine

/-- The sequencing state that decodes an event (R50, R90). -/
def State.ctx (s : State) : Event → Ctx
  | .portWrite (.pic p) _ _ => { fsm := ((s.pics[p]?).map (·.fsm)).getD .idle }
  | .portRead (.pic p) _ => { fsm := ((s.pics[p]?).map (·.fsm)).getD .idle }
  | .portWrite .xtide off _ => { xt := s.xtAt off }
  | .portRead .xtide off => { xt := s.xtAt off }
  | .line p n _ => { level := ((s.pics[p]?).map (·.level n)).getD false }
  | .inta p => { ack := ((s.pics[p]?).map (·.ackKind)).getD .nothing }
  | .ataWrite d _ _ => { busy := (s.device d).busy, xfer := (s.device d).xfer }
  | .ataRead d _ => { busy := (s.device d).busy, xfer := (s.device d).xfer }
  | .worker d => { worker := (s.device d).workerKind }
  | .reg sp _ _ _ _ => { addrBits := (s.dispatcher sp).addrBits }
  | .resolve sp _ => { addrBits := (s.dispatcher sp).addrBits }
  | .busRead sp _ _ => { addrBits := (s.dispatcher sp).addrBits }
  | .busWrite sp _ _ _ => { addrBits := (s.dispatcher sp).addrBits }
  | .establishMappings sp _ _ _ => { addrBits := (s.dispatcher sp).addrBits }
  | _ => {}

/-- The agent that takes the next step: the schedule's first, and where the schedule is empty a free choice (R7, R73:
every interleaving is allowed). -/
def State.nextAgent (s : State) : Agent :=
  match s.schedule with
  | a :: _ => a
  | [] => Config.freeAgent s.clock

/-- The step of an agent begins. -/
def State.beginStep (s : State) (a : Agent) : State :=
  { s with active := a, schedule := s.schedule.tail, clock := s.clock + 1 }

/-- Replace what is left of the operation the active agent is in. -/
def State.setFollow (s : State) (es : List Event) : State :=
  s.setThread s.active { s.thread s.active with follow := es }

/-- The next operation of the active agent's own, where it is in the middle of none: the next one of its program, with a
fresh reply; a worker's enabled step (R230); a pulse of the PIT's line (R7 c, R295). `none`: the agent waits. -/
def State.newOperation (s : State) : Option (Event × State) :=
  match s.active with
  | .worker d => (s.device d).workerKind.map fun _ => (.worker d, s)
  | .pit => s.wiring.pitLine.map fun l => (.line l.pic l.line true, s.setFollow [.line l.pic l.line false])
  | _ =>
    match (s.thread s.active).program with
    | e :: rest => some (e, s.setThread s.active { follow := [], program := rest, reply := {} })
    | [] => none

/-- The event the active agent performs: the rest of the operation it is in first (R74). -/
def State.takeEvent (s : State) : Option (Event × State) :=
  match (s.thread s.active).follow with
  | e :: rest => some (e, s.setFollow rest)
  | [] => s.newOperation

/-- An event that is a row: decode it in the state at hand and run the row. -/
def State.runRow (s : State) (e : Event) : Result :=
  match decode (s.ctx e) e with
  | .row i => exec i s
  | .rejected r => .refused (.undecodable r)

/-- Perform an event: a word call on a host block (R67), a destruction or a construction by the configuration host (R7 d,
R45), or a row of the table. -/
def State.runEvent (s : State) (e : Event) : Result :=
  match e with
  | .wordWrite m w x mask data => s.wordWrite m w x mask data
  | .wordRead m w x mask => s.wordRead m w x mask
  | .teardown d => .next (s.teardown d)
  | .join d => .next (s.joinWorker d)
  | .constructDevice d => s.constructDevice d
  | .constructPic wire => s.constructPic wire
  | .constructMemory size permissions word => s.constructMemory size permissions word
  | e => s.runRow e

end Sys2Proof.Machine
end

