-- ==== Sys2Proof/Machine/Step.lean ====
section
/-! DEFINITION. One step of the machine: one agent performs one event (spec/00_scope.md R7, R17). -/
namespace Sys2Proof.Machine

/-- One step: the next agent begins its step, takes its event and performs it; an agent that waits changes nothing else. -/
def step (s : State) : Host.Outcome State Fault Refusal :=
  match (s.beginStep s.nextAgent).takeEvent with
  | some (e, t) => t.runEvent e
  | none => .next (s.beginStep s.nextAgent)

/-- The state with the instruction of these bits placed as the first event of the CPU engine's thread, and that thread
scheduled, so that the very next step runs it (notes/assumptions/1.md). -/
def State.withFetchWord (s : State) (nbits w : Nat) : State :=
  { s with
    threads := putThread s.threads (.engine 0)
      { threadOf s.threads (.engine 0) with follow := .bare nbits w :: (threadOf s.threads (.engine 0)).follow },
    schedule := .engine 0 :: s.schedule }

end Sys2Proof.Machine
end

