-- ==== Sys2Proof/Safety.lean ====
section
/-! DEFINITION. The terms that statements about the machine use: what an operation leaves unchanged (its frame), what the
agent that issued it is answered and does next, what a change of an interrupt output brings about, and the invariants that
every step keeps. -/
namespace Sys2Proof

/-! ## Kinds of instructions -/

/-- The instruction is an access to a port of PIC `p` (R91, R126). -/
def Instr.accessesPic (i : Instr) (p : Nat) : Bool :=
  match i with
  | .icw1 k _ | .ocw2Eoi k _ | .ocw2Seoi k _ | .ocw2NopSl k _ | .ocw2Nop0 k _ | .ocw2Rotate k _ | .ocw3 k _
  | .ocw3Poll k _ | .ocw3Smm k _ | .picCmdWriteUnspec k _ | .icw2 k _ | .icw3 k _ | .icw4 k _ | .ocw1 k _
  | .picDataWriteUnspec k _ | .pollRead k | .maskRead k | .irrIsrRead k | .picCmdReadUnspec k | .picInit k _ _ _ _
  | .eoi k | .seoi k _ | .poll k | .mask k _ => k == p
  | _ => false

/-- The instruction is an acknowledge of PIC `p` (R183, R184, R186). -/
def Instr.acknowledgesPic (i : Instr) (p : Nat) : Bool :=
  match i with
  | .inta k | .intaSpurious k | .intaCascade k => k == p
  | _ => false

/-- The instruction is a step of the worker of device `d`, or a command with its completion (R230 to R235, R240 to
R252). -/
def Instr.worksFor (i : Instr) (d : Drive) : Bool :=
  match i with
  | .recalibrate e | .readSectors e | .readSectorsNoRetry e | .writeSectors e | .writeSectorsNoRetry e | .seek e
  | .initializeDriveParameters e | .readMultiple e | .writeMultiple e | .setMultipleMode e | .identifyDrive e
  | .setFeatures e | .ataUnknownCommand e _ | .workerStop e | .workerReset e | .workerCommand e
  | .workerContinueRead e | .workerContinueWrite e => e == d
  | _ => false

namespace Machine

/-! ## Frames -/

/-- The other device of the channel. -/
def otherDrive : Drive → Drive
  | .master => .slave
  | .slave => .master

/-- Every byte of every host block and of both backing stores reads as before. -/
structure SameMemory (s t : State) : Prop where
  host : ∀ m a, t.hostByte m a = s.hostByte m a
  store : ∀ d a, t.storeByte d a = s.storeByte d a

/-- The PICs and the CPU engine's sink are as before. -/
structure SamePics (s t : State) : Prop where
  pics : t.pics = s.pics
  sink : t.sink = s.sink

/-- Both dispatchers, the registration handles and the host blocks are as before. -/
structure SameBus (s t : State) : Prop where
  io : t.io = s.io
  mem : t.mem = s.mem
  registrations : t.registrations = s.registrations
  hostBlocks : t.hostBlocks = s.hostBlocks

/-- Both ATA devices, the demux and the XTIDE latch are as before. -/
structure SameChannel (s t : State) : Prop where
  master : t.master = s.master
  slave : t.slave = s.slave
  mux : t.mux = s.mux
  latch : t.latch = s.latch

/-- The platform's parameters, the scheduling and every other agent are as before, and so is the active agent's
program. -/
structure SameAgents (s t : State) : Prop where
  xtMap : t.xtMap = s.xtMap
  wiring : t.wiring = s.wiring
  active : t.active = s.active
  schedule : t.schedule = s.schedule
  clock : t.clock = s.clock
  others : ∀ a, a ≠ s.active → t.thread a = s.thread a
  program : (t.thread s.active).program = (s.thread s.active).program

/-- What the active agent does next: these events, then what it had to do before. -/
def Continues (es : List Event) (s t : State) : Prop :=
  (t.thread s.active).follow = es ++ (s.thread s.active).follow

/-- What the active agent is answered: these bytes and diagnostics after the ones it had (R16). -/
structure Answered (bytes : List Byte) (diagnostics : List Diagnostic) (s t : State) : Prop where
  bytes : (t.thread s.active).reply.bytes = (s.thread s.active).reply.bytes ++ bytes
  diagnostics : (t.thread s.active).reply.diagnostics = (s.thread s.active).reply.diagnostics ++ diagnostics
  handle : (t.thread s.active).reply.handle = (s.thread s.active).reply.handle
  route : (t.thread s.active).reply.route = (s.thread s.active).reply.route

/-- An operation of one PIC touches nothing outside the PICs, the sink and the active agent's thread. -/
structure PicFrame (s t : State) : Prop where
  bus : SameBus s t
  channel : SameChannel s t
  agents : SameAgents s t
  memory : SameMemory s t

/-- An operation that only answers, or only says what its agent does next, touches nothing but the active agent's
thread. -/
structure QuietFrame (s t : State) : Prop where
  pics : SamePics s t
  bus : SameBus s t
  channel : SameChannel s t
  agents : SameAgents s t
  memory : SameMemory s t

/-- An operation of the dispatchers touches nothing but its dispatcher, the handles and the active agent's thread; the
width of the space stays. -/
structure DispatcherFrame (sp : Space) (s t : State) : Prop where
  pics : SamePics s t
  addrBits : (t.dispatcher sp).addrBits = (s.dispatcher sp).addrBits
  other : ∀ sp', sp' ≠ sp → t.dispatcher sp' = s.dispatcher sp'
  hostBlocks : t.hostBlocks = s.hostBlocks
  channel : SameChannel s t
  agents : SameAgents s t
  memory : SameMemory s t

/-- A bus-side operation of one ATA device touches no other device, no PIC, no dispatcher, no latch, no selection and no
byte of any memory: only the device, the demux output and the active agent's thread. -/
structure DeviceFrame (d : Drive) (s t : State) : Prop where
  pics : SamePics s t
  bus : SameBus s t
  other : t.device (otherDrive d) = s.device (otherDrive d)
  latch : t.latch = s.latch
  agents : SameAgents s t
  memory : SameMemory s t

/-- The same for a worker step that stores `n` bytes of the device's backing store from address `a` on: every other byte
of every memory reads as before. -/
structure StoringFrame (d : Drive) (a n : Nat) (s t : State) : Prop where
  pics : SamePics s t
  bus : SameBus s t
  other : t.device (otherDrive d) = s.device (otherDrive d)
  latch : t.latch = s.latch
  agents : SameAgents s t
  host : ∀ m k, t.hostByte m k = s.hostByte m k
  store : ∀ k, (k < a ∨ a + n ≤ k) → t.storeByte d k = s.storeByte d k
  otherStore : ∀ k, t.storeByte (otherDrive d) k = s.storeByte (otherDrive d) k

/-! ## Interrupt outputs -/

/-- The PIC with its output at the level R32 gives it. -/
def Pic.settled (q : Pic) : Pic := { q with out := q.irr &&& ~~~q.ocw1 &&& ~~~q.isr != 0 }

/-- What `updateOutput` (R180) makes the active agent do next. -/
def outputEvents (s : State) (p : Nat) (before after : Bool) : List Event :=
  if after = before then [] else
    match s.primaryLine p with
    | some l => [.line l.pic l.line after]
    | none => []

/-- The sink after `updateOutput` (R180): told only of a change, and only by an outermost PIC. -/
def sinkAfter (s : State) (p : Nat) (before after : Bool) : Sink :=
  if after = before then s.sink
  else if (s.primaryLine p).isSome then s.sink else { level := after, notices := s.sink.notices + 1 }

/-- PIC `p` was `q`; an operation made it `q'`, and `updateOutput` ran (R180): the output settles, the receiver is told of
a change, and `rest` is what the operation itself goes on with. -/
structure PicUpdated (p : Nat) (q q' : Pic) (rest : List Event) (s t : State) : Prop where
  pics : t.pics = s.pics.set p q'.settled
  follow : Continues (outputEvents s p q.out q'.settled.out ++ rest) s t
  sink : t.sink = sinkAfter s p q.out q'.settled.out

/-- PIC `p` was made `q'`, no `updateOutput` ran, and `rest` is what the operation goes on with. -/
structure PicStored (p : Nat) (q' : Pic) (rest : List Event) (s t : State) : Prop where
  pics : t.pics = s.pics.set p q'
  follow : Continues rest s t
  sink : t.sink = s.sink

/-- Line `n` is the lowest-numbered unserviced line of the PIC: requested, not masked, not in service (R32, R33). -/
structure Pic.Selects (q : Pic) (n : Fin 8) : Prop where
  requested : q.irr.getLsbD n.val = true
  unmasked : q.ocw1.getLsbD n.val = false
  notInService : q.isr.getLsbD n.val = false
  lowest : ∀ k, k < n → ¬(q.irr.getLsbD k.val = true ∧ q.ocw1.getLsbD k.val = false ∧ q.isr.getLsbD k.val = false)

/-- Line `n` is level-triggered: by ICW1 LTIM for all lines, by its ELCR bit for this one (R31). -/
def Pic.LevelTriggered (q : Pic) (n : Fin 8) : Prop := q.icw1 &&& 0x08 ≠ 0 ∨ q.elcr.getLsbD n.val = true

/-- What `updateMux` (R273) makes the active agent do next. -/
def muxEvents (s : State) (before after : Bool) : List Event :=
  if after = before then [] else
    match s.wiring.muxLine with
    | some l => [.line l.pic l.line after]
    | none => []

/-- Device `d` was made `dev`, and `updateMux` ran in the same step (R273, R276): the demux output shows the selected
device's visible level, and the host line is told of a change; the selection and the shadow bits are as before. -/
structure DeviceUpdated (d : Drive) (dev : AtaDevice) (s t : State) : Prop where
  device : t.device d = dev
  mux : t.mux = { s.mux with out := (t.device s.mux.selected).visible }
  follow : Continues (muxEvents s s.mux.out t.mux.out) s t

/-! ## Completion -/

/-- The instruction answers a next state in which PIC `p`, that was `q`, is `q'` with its output updated. -/
def CompletesPic (i : Instr) (s : State) (p : Nat) (q q' : Pic) (rest : List Event) (bytes : List Byte) : Prop :=
  ∃ t, exec i s = .next t ∧ PicUpdated p q q' rest s t ∧ Answered bytes [] s t ∧ PicFrame s t

/-- The instruction answers a next state in which PIC `p` is `q'`, its output not recomputed. -/
def StoresPic (i : Instr) (s : State) (p : Nat) (q' : Pic) (rest : List Event) (bytes : List Byte) : Prop :=
  ∃ t, exec i s = .next t ∧ PicStored p q' rest s t ∧ Answered bytes [] s t ∧ PicFrame s t

/-- The instruction answers a next state and only answers these bytes and diagnostics, or only goes on with these
events. -/
def CompletesQuietly (i : Instr) (s : State) (es : List Event) (bytes : List Byte) (diagnostics : List Diagnostic) :
    Prop :=
  ∃ t, exec i s = .next t ∧ Continues es s t ∧ Answered bytes diagnostics s t ∧ QuietFrame s t

/-- The instruction answers a next state in which device `d` is `dev`, with the demux output updated. -/
def CompletesDevice (i : Instr) (s : State) (d : Drive) (dev : AtaDevice) (bytes : List Byte)
    (diagnostics : List Diagnostic) : Prop :=
  ∃ t, exec i s = .next t ∧ DeviceUpdated d dev s t ∧ Answered bytes diagnostics s t ∧ DeviceFrame d s t

/-- The device after a command that succeeds and starts no transfer (R211, R233): the result in status and error with DRQ
as it was, BUSY off, the interrupt raised, the request taken. -/
def AtaDevice.afterSuccess (dev : AtaDevice) : AtaDevice :=
  { dev with
    commandRequested := false, intrq := true,
    regs := { dev.regs with status := (dev.regs.status &&& 0x08) ||| 0x50, error := 0x00 } }

/-- The device after a command that aborts (R211, R233): ERR and ABRT, no interrupt. -/
def AtaDevice.afterAbort (dev : AtaDevice) : AtaDevice :=
  { dev with
    commandRequested := false,
    regs := { dev.regs with status := (dev.regs.status &&& 0x08) ||| 0x51, error := 0x04 } }

/-- The device after a worker step that opened a transfer of `len` bytes and completed with success (R224, R225, R233). -/
def AtaDevice.afterTransfer (dev : AtaDevice) (x : Xfer) (len : Nat) : AtaDevice :=
  { dev with
    cursor := 0, length := len, xfer := x, intrq := true,
    regs := { dev.regs with status := 0x58, error := 0x00 } }

/-- An ATA device with the values of R55, R39, R41, R42, R43 and R44 after construction, written out, and these parts of
the platform. That no position of the buffer is filled stands for contents that R39 leaves open (notes/assumptions/8.md);
`stopped` is the model's own (notes/assumptions/20.md). -/
def devicePoweredUp (disk : DiskParams) (store : Memory) (ioFaults : List Bool) : AtaDevice :=
  { regs := { status := 0x50, error := 0x01, feature := 0x00, sectorCount := 0x01, sectorNumber := 0x01,
              cylinderLow := 0x00, cylinderHigh := 0x00, driveHead := 0x00, command := 0x00 },
    buffer := [], cursor := 0, length := 0, xfer := .idle, commandRequested := false, resetRequested := false,
    stopRequested := false, continueRequested := false, stopped := false, pio8 := false, multipleBlock := 0,
    geometry := none, op := none, intrq := false, nIEN := false, disk := disk, store := store, ioFaults := ioFaults }

/-- A PIC with the values of R54 after construction, written out, and these secondaries. -/
def picPoweredUp (secondary : Vector (Option Nat) 8) : Pic :=
  { fsm := .idle, icw1 := 0x00, icw2 := 0x00, icw3 := 0x00, icw4 := 0x00, ocw1 := 0x00, ocw3 := 0x00, irr := 0x00,
    isr := 0x00, edge := 0x00, elcr := 0x00, secondary := secondary, out := false }

/-- A dispatcher with the values of R34 and R36 after construction: no range, no engine, nothing mapped. -/
structure Dispatcher.PoweredUp (disp : Dispatcher) : Prop where
  ranges : disp.ranges = []
  engine : disp.engine = none
  mapped : disp.mapped = []
  engineMap : disp.engineMap = []

/-- Some instructions, one after the other. -/
def runRows : List Instr → State → Result
  | [], s => .next s
  | i :: is, s =>
    match exec i s with
    | .next t => runRows is t
    | .fault f => .fault f
    | .refused r => .refused r

/-- Some events, one after the other, with nothing of another agent between them. -/
def runEvents : List Event → State → Result
  | [], s => .next s
  | e :: es, s =>
    match s.runEvent e with
    | .next t => runEvents es t
    | .fault f => .fault f
    | .refused r => .refused r

/-! ## Runs and fairness (D39) -/

/-- What may come from outside between two steps: whose turn it is (R73: every interleaving is allowed), and operations
placed behind those an agent has still to do (notes/assumptions/1.md). Everything else stays. -/
structure Arrives (s t : State) : Prop where
  rest : t = { s with schedule := t.schedule, threads := t.threads }
  follow : ∀ a, (t.thread a).follow = (s.thread a).follow
  reply : ∀ a, (t.thread a).reply = (s.thread a).reply
  program : ∀ a, ∃ es, (t.thread a).program = (s.thread a).program ++ es

/-- A run that goes on for ever: a state for each number, each the next state of the one before with what has come from
outside. -/
def Run (r : Nat → State) : Prop := ∀ k, ∃ t, step (r k) = .next t ∧ Arrives t (r (k + 1))

/-- The next step of the machine is a step of the worker of device `d` that begins a new one of R231 to R236. -/
def State.takesWorkerStep (s : State) (d : Drive) : Prop :=
  s.nextAgent = .worker d ∧ (s.thread (.worker d)).follow = []

/-- A run that is fair to the workers of the ATA devices (R7 b, R78, R230, D39): a step of theirs that stays enabled is
eventually taken, and a worker in the middle of one eventually goes on with it. -/
structure FairToDevices (r : Nat → State) : Prop where
  run : Run r
  begins : ∀ d k, (∀ j, k ≤ j → ((r j).device d).workerKind ≠ none) → ∃ j, k ≤ j ∧ (r j).takesWorkerStep d
  goesOn : ∀ d k, (∀ j, k ≤ j → ((r j).thread (.worker d)).follow ≠ []) → ∃ j, k ≤ j ∧ (r j).nextAgent = .worker d

/-- The fairness that R7, R78 and R230 assume (D39): a run that is fair to every worker of R7, those of the ATA devices and
the PIT's (R7 c), whose step is enabled at any time (R297) and so is taken again and again, with no bound on the steps of
others between. Nothing is assumed of the agents that are no workers. -/
structure FairRun (r : Nat → State) : Prop extends FairToDevices r where
  pit : ∀ k, ∃ j, k ≤ j ∧ (r j).nextAgent = .pit

/-- The event that the next step performs, and the state in which it performs it. -/
def State.nextEvent (s : State) : Option (Event × State) := (s.beginStep s.nextAgent).takeEvent

/-! ## Invariants -/

/-- The output line is the one R32 requires, and the special-mask bit was never stored (R170). -/
structure Pic.Inv (q : Pic) : Prop where
  output : q.out = (q.irr &&& ~~~q.ocw1 &&& ~~~q.isr != 0)
  noSpecialMask : q.ocw3 &&& 0x20 = 0

/-- The PIC invariant of a state. -/
def State.PicInv (s : State) : Prop := ∀ q ∈ s.pics, q.Inv

/-- The ranges of a dispatcher are intervals in ascending order that do not overlap (R34, R35, R145). -/
structure Dispatcher.Inv (disp : Dispatcher) : Prop where
  nonempty : ∀ r ∈ disp.ranges, r.beginAddress < r.endAddress
  apart : disp.ranges.Pairwise (fun r q => r.endAddress ≤ q.beginAddress)

/-- The dispatcher invariant of a state. -/
def State.DispatcherInv (s : State) : Prop := s.io.Inv ∧ s.mem.Inv

/-- The mappings of a dispatcher agree with its table (R80): with an engine attached every registered range is mapped, and
the engine holds exactly the tiles of the host-backed ones; without one nothing is mapped. Every host-backed range names a
host block that exists. -/
structure Dispatcher.MappingInv (blocks : List HostBlock) (disp : Dispatcher) : Prop where
  backed : ∀ r ∈ disp.ranges, ∀ m, r.handler = .memory m → m < blocks.length
  attached : disp.engine ≠ none → (∀ r, r ∈ disp.mapped ↔ r ∈ disp.ranges) ∧
    ∀ x, x ∈ disp.engineMap ↔ ∃ r ∈ disp.ranges, x ∈ mappingsOf blocks r
  detached : disp.engine = none → disp.mapped = [] ∧ disp.engineMap = []

/-- The mapping invariant of a state. -/
def State.MappingInv (s : State) : Prop :=
  s.io.MappingInv s.hostBlocks ∧ s.mem.MappingInv s.hostBlocks

/-- PIC `k` is chained on a line of PIC `p` (R28, D40). -/
def State.Chained (s : State) (p k : Nat) : Prop :=
  ∃ (q : Pic) (n : Fin 8), s.pics[p]? = some q ∧ q.secondary.get n = some k

/-- PIC_TOPOLOGY is a finite forest (R10): every chained PIC exists and is chained on one line only, and no PIC is reachable
from itself. -/
structure State.TopologyInv (s : State) : Prop where
  present : ∀ p k, s.Chained p k → k < s.pics.length
  once : ∀ (p p' k : Nat) (q q' : Pic) (n n' : Fin 8), s.pics[p]? = some q → s.pics[p']? = some q' →
    q.secondary.get n = some k → q'.secondary.get n' = some k → p = p' ∧ n = n'
  acyclic : ∀ p, ¬Relation.TransGen s.Chained p p

/-- Every memory is in canonical form. -/
structure State.MemoryInv (s : State) : Prop where
  blocks : ∀ b ∈ s.hostBlocks, Memory.wf b.cells
  stores : ∀ d, Memory.wf (s.device d).store
  buffers : ∀ d, risingCells (s.device d).buffer

/-- The transfer engine and the operation in progress (R39, R43, R224, R225): DRQ shows an open transfer, whose length is
a positive number of sectors and whose cursor is within it; the cursor never passes the length, nor the length the capacity
of the buffer, and no byte is held beyond it; an operation in progress has sectors left. -/
structure AtaDevice.Inv (dev : AtaDevice) : Prop where
  drq : dev.drq = decide (dev.xfer ≠ .idle)
  bounds : dev.cursor ≤ dev.length ∧ dev.length ≤ 131072
  transfer : dev.xfer ≠ .idle → dev.cursor < dev.length ∧ dev.length % 512 = 0
  buffer : ∀ c ∈ dev.buffer, c.1 < 131072
  operation : ∀ op, dev.op = some op → 0 < op.chunk ∧ 0 < op.remaining ∧ op.remaining ≤ 256

/-- The invariant of the ATA channel: both devices meet theirs, and the demux output shows the visible level of the
selected device (R273). -/
structure State.ChannelInv (s : State) : Prop where
  devices : ∀ d, (s.device d).Inv
  out : s.mux.out = (s.device s.mux.selected).visible

end Machine
end Sys2Proof
end

