-- ==== Sys2Proof/Certificates/Slice0/Obligations.lean ====
section
/-! DEFINITION. The statements for the provers. Each docstring names the rules of spec/ it formalises. The terms
(`CompletesPic`, `DeviceFrame`, ...) are defined in Sys2Proof/Safety.lean. -/

open Sys2Proof Sys2Proof.Machine

/-! ## Encoding -/

/-- R90 to R95, R110, R116, R118, R123: in every sequencing state that a well-formed row belongs to, its event decodes
to that row, with every operand. The places of the bits and ports are those spec/93_implementation_defined.md K1 to
K10 takes from general knowledge; which operands are well formed is notes/assumptions/29.md. -/
def Obligations.DecodeOfEncode : Prop :=
  ∀ (i : Instr) (c : Ctx), i.wellFormed = true → i.appliesIn c = true → decode c (encode i) = .row i

/-- R90: an event that carries its port and direction is a row only of its own encoding, and that row is well formed
and belongs to the sequencing state: no access is taken for another row's. The places of the bits and ports are those
spec/93_implementation_defined.md K1 to K10 takes from general knowledge; what is rejected is notes/assumptions/29.md.
-/
def Obligations.EncodeOfDecode : Prop :=
  ∀ (c : Ctx) (e : Event) (i : Instr), (∀ n w, e ≠ .bare n w) → decode c e = .row i →
    encode i = e ∧ i.wellFormed = true ∧ i.appliesIn c = true

/-- R92, R93, R101, R102, R106, R110, R116, R123: some accesses written out, with the row each is. The bytes are those
of spec/95_test_vectors.md; the places of the bits are from spec/93_implementation_defined.md K1 to K10. -/
def Obligations.WrittenOutAccesses : Prop :=
  decode {} (.portWrite (.pic 0) 0 0x11) = .row (.icw1 0 0x11) ∧
  decode {} (.portWrite (.pic 0) 0 0x20) = .row (.ocw2Eoi 0 0x20) ∧
  decode {} (.portWrite (.pic 1) 0 0x0B) = .row (.ocw3 1 0x0B) ∧
  decode { fsm := .waitingForIcw2 } (.portWrite (.pic 0) 1 0x08) = .row (.icw2 0 0x08) ∧
  decode {} (.portWrite (.elcr 0) 0 0x20) = .row (.elcrWrite 0 0x20) ∧
  decode {} (.ataWrite .master 7 0x00EC) = .row (.ataCommandW .master 0xEC) ∧
  decode {} (.command .slave 0xC4) = .row (.readMultiple .slave) ∧
  decode { xt := .commandBlock 0 } (.portRead .xtide 0) = .row (.xtDataLowR 0)

/-! ## The step -/

/-- R7, R50, R74, R90, R297: one step of the machine is one event of the next agent, decoded in the state at hand and
run by `exec`; around it the step only moves the agent's events, the schedule and the step count on. A byte placed
from outside is run by the very next step. An event that is no row of the table (a word call, a destruction, a
construction) is performed in the same way. How agents hold their operations is the model's choice
(notes/assumptions/1.md, 2.md, 3.md, 10.md, 20.md, 31.md), one rule a step is the spec's decision D1, and the PIT's pulse
as two steps is notes/assumptions/17.md on the spec's decision D35. -/
def Obligations.StepRunsDecodedInstruction : Prop :=
  (∀ (s : State) (e : Event) (es : List Event) (i : Instr),
    (s.thread s.nextAgent).follow = e :: es → decode (s.ctx e) e = .row i → i.wellFormed = true →
    step s = exec i ((s.beginStep s.nextAgent).setFollow es)) ∧
  (∀ (s : State) (e : Event) (es : List Event) (i : Instr),
    ((∃ k, s.nextAgent = .engine k) ∨ (∃ k, s.nextAgent = .device k) ∨ s.nextAgent = .host) →
    (s.thread s.nextAgent).follow = [] → (s.thread s.nextAgent).program = e :: es →
    decode (s.ctx e) e = .row i → i.wellFormed = true →
    step s = exec i ((s.beginStep s.nextAgent).setThread s.nextAgent { follow := [], program := es, reply := {} })) ∧
  (∀ (s : State) (e : Event) (es : List Event), (s.thread s.nextAgent).follow = e :: es →
    step s = ((s.beginStep s.nextAgent).setFollow es).runEvent e) ∧
  (∀ (s : State) (e : Event) (es : List Event),
    ((∃ k, s.nextAgent = .engine k) ∨ (∃ k, s.nextAgent = .device k) ∨ s.nextAgent = .host) →
    (s.thread s.nextAgent).follow = [] → (s.thread s.nextAgent).program = e :: es →
    step s =
      ((s.beginStep s.nextAgent).setThread s.nextAgent { follow := [], program := es, reply := {} }).runEvent e) ∧
  (∀ (s : State) (d : Drive) (i : Instr),
    s.nextAgent = .worker d → (s.thread s.nextAgent).follow = [] →
    decode (s.ctx (.worker d)) (.worker d) = .row i → step s = exec i (s.beginStep (.worker d))) ∧
  (∀ (s : State) (l : LineRef) (i : Instr),
    s.nextAgent = .pit → (s.thread s.nextAgent).follow = [] → s.wiring.pitLine = some l →
    decode (s.ctx (.line l.pic l.line true)) (.line l.pic l.line true) = .row i →
    step s = exec i ((s.beginStep .pit).setFollow [.line l.pic l.line false])) ∧
  (∀ (s : State) (w : Byte),
    step (s.withFetchWord 8 w.toNat) =
      exec (decodeBareByte w)
        (((s.withFetchWord 8 w.toNat).beginStep (.engine 0)).setFollow (s.thread (.engine 0)).follow))

/-- R73: a step of one agent leaves what every other agent has still to do, and what it was answered, as it was. How
agents hold their operations is the model's choice (notes/assumptions/1.md, 3.md, 11.md). -/
def Obligations.StepLeavesOtherAgents : Prop :=
  ∀ (s t : State), step s = .next t → t.clock = s.clock + 1 ∧ ∀ a, a ≠ s.nextAgent → t.thread a = s.thread a

/-! ## PIC: the command machine -/

/-- R162, R167, R126: ICW1 in every state of the command machine captures the byte, clears the mask and the edge
latch, starts the handshake and updates the output; `PICINIT` does so and goes on with its other writes; in `Idle` a
data-port write is the mask, and the output is updated. What ICW1 keeps, the output after it and after a mask write,
and the operands of PICINIT are the spec's decisions D6, D7 and D20. -/
def Obligations.Icw1AndOcw1UpdateOutput : Prop :=
  ∀ (s : State) (p : Nat) (q : Pic), s.pics[p]? = some q →
    (∀ b : Byte, b &&& 0x10 ≠ 0 →
      CompletesPic (.icw1 p b) s p q { q with icw1 := b, ocw1 := 0, edge := 0, fsm := .waitingForIcw2 } [] []) ∧
    (∀ i1 i2 i3 i4 : Byte, i1 &&& 0x10 ≠ 0 →
      CompletesPic (.picInit p i1 i2 i3 i4) s p q
        { q with icw1 := i1, ocw1 := 0, edge := 0, fsm := .waitingForIcw2 }
        ([.portWrite (.pic p) 1 i2] ++ (if i1 &&& 0x02 = 0 then [.portWrite (.pic p) 1 i3] else []) ++
          (if i1 &&& 0x01 ≠ 0 then [.portWrite (.pic p) 1 i4] else [])) []) ∧
    (q.fsm = .idle → ∀ b : Byte,
      CompletesPic (.ocw1 p b) s p q { q with ocw1 := b } [] [] ∧
      CompletesPic (.mask p b) s p q { q with ocw1 := b } [] [])

/-- R163, R165, R166: during the handshake a data-port write is the initialization word that is due, and the command
machine moves as SNGL and IC4 of ICW1 say (the places of the two bits: R96, D3). -/
def Obligations.DataPortWritesAdvanceHandshake : Prop :=
  ∀ (s : State) (p : Nat) (q : Pic) (b : Byte), s.pics[p]? = some q →
    (q.fsm = .waitingForIcw2 →
      StoresPic (.icw2 p b) s p
        { q with
          icw2 := b,
          fsm := if q.icw1 &&& 0x02 = 0 then .waitingForIcw3
            else if q.icw1 &&& 0x01 ≠ 0 then .waitingForIcw4 else .idle } [] []) ∧
    (q.fsm = .waitingForIcw3 →
      StoresPic (.icw3 p b) s p
        { q with icw3 := b, fsm := if q.icw1 &&& 0x01 ≠ 0 then .waitingForIcw4 else .idle } [] []) ∧
    (q.fsm = .waitingForIcw4 → StoresPic (.icw4 p b) s p { q with icw4 := b, fsm := .idle } [] [])

/-- R164: from any state, the handshake with the words its ICW1 asks for ends in `Idle`, with exactly those words
captured and the mask clear. What ICW1 keeps is the spec's decision D6. -/
def Obligations.HandshakeReturnsToIdle : Prop :=
  ∀ (s : State) (p : Nat) (q : Pic) (i1 i2 i3 i4 : Byte), s.pics[p]? = some q → i1 &&& 0x10 ≠ 0 →
    ∃ t q', runRows
        ([.icw1 p i1, .icw2 p i2] ++ (if i1 &&& 0x02 = 0 then [.icw3 p i3] else []) ++
          (if i1 &&& 0x01 ≠ 0 then [.icw4 p i4] else [])) s = .next t ∧
      t.pics[p]? = some q' ∧ q'.fsm = .idle ∧ q'.icw1 = i1 ∧ q'.icw2 = i2 ∧
      q'.icw3 = (if i1 &&& 0x02 = 0 then i3 else q.icw3) ∧ q'.icw4 = (if i1 &&& 0x01 ≠ 0 then i4 else q.icw4) ∧
      q'.ocw1 = 0 ∧ q'.edge = 0 ∧ q'.irr = q.irr ∧ q'.isr = q.isr ∧ q'.ocw3 = q.ocw3 ∧ q'.elcr = q.elcr

/-- R168, R169: an end of interrupt clears one in-service bit, the lowest-numbered one set or the one named, and the
output is recomputed. That the output is recomputed is the spec's decision D7. -/
def Obligations.EndOfInterrupt : Prop :=
  ∀ (s : State) (p : Nat) (q : Pic), s.pics[p]? = some q → q.fsm = .idle →
    (∃ isr : Byte,
      (∀ k : Fin 8, isr.getLsbD k.val = true ↔
        q.isr.getLsbD k.val = true ∧ ∃ j : Fin 8, j < k ∧ q.isr.getLsbD j.val = true) ∧
      CompletesPic (.eoi p) s p q { q with isr := isr } [] [] ∧
      ∀ b : Byte, b &&& 0xF8 = 0x20 → CompletesPic (.ocw2Eoi p b) s p q { q with isr := isr } [] []) ∧
    (∀ n : Fin 8, ∃ isr : Byte,
      (∀ k : Fin 8, isr.getLsbD k.val = true ↔ q.isr.getLsbD k.val = true ∧ k ≠ n) ∧
      CompletesPic (.seoi p n) s p q { q with isr := isr } [] [] ∧
      ∀ b : Byte, b &&& 0xF8 = 0x60 → (b &&& 0x07).toNat = n.val →
        CompletesPic (.ocw2Seoi p b) s p q { q with isr := isr } [] [])

/-- R171: the other forms of OCW2: the two that ask for nothing change nothing, every rotate form faults. The fault
and the forms without effect are the spec's decision D13. -/
def Obligations.Ocw2OtherForms : Prop :=
  ∀ (s : State) (p : Nat) (q : Pic) (b : Byte), s.pics[p]? = some q → q.fsm = .idle →
    (b &&& 0xF8 = 0x40 → exec (.ocw2NopSl p b) s = .next s) ∧
    (b &&& 0xF8 = 0x00 → exec (.ocw2Nop0 p b) s = .next s) ∧
    (b &&& 0x98 = 0x80 → exec (.ocw2Rotate p b) s = .fault .picUnimplementedMode)

/-- R170: OCW3 is stored, and starts a poll when POLL is set; with the special-mask bit it faults. The fault at the
write is the spec's decision D13. -/
def Obligations.Ocw3IsStored : Prop :=
  ∀ (s : State) (p : Nat) (q : Pic) (b : Byte), s.pics[p]? = some q → q.fsm = .idle →
    (b &&& 0x3C = 0x08 → StoresPic (.ocw3 p b) s p { q with ocw3 := b } [] []) ∧
    (b &&& 0x3C = 0x0C → StoresPic (.ocw3Poll p b) s p { q with ocw3 := b, fsm := .poll } [] []) ∧
    (b &&& 0x38 = 0x28 → exec (.ocw3Smm p b) s = .fault .picUnimplementedMode)

/-- R172: the accesses the source gives no meaning are refused with their port, direction and state. The refusal is
the spec's decision D8; a row met outside its own state is notes/assumptions/22.md. -/
def Obligations.UnspecifiedAccessesRefused : Prop :=
  ∀ (s : State) (p : Nat) (q : Pic) (b : Byte), s.pics[p]? = some q →
    (q.fsm ≠ .idle → ∀ i ∈ ([.picCmdWriteUnspec p b, .ocw2Eoi p b, .ocw2Seoi p b, .ocw2NopSl p b, .ocw2Nop0 p b,
        .ocw2Rotate p b, .ocw3 p b, .ocw3Poll p b, .ocw3Smm p b] : List Instr),
      exec i s = .refused (.picUnspecified .command .write q.fsm)) ∧
    (q.fsm = .poll →
      exec (.picDataWriteUnspec p b) s = .refused (.picUnspecified .data .write .poll) ∧
      exec (.picCmdReadUnspec p) s = .refused (.picUnspecified .command .read .poll))

/-- R173, R126: the poll read answers the lowest unserviced line with bit 7 set, or 0x07 where there is none, ends the
poll and changes neither IRR nor ISR; `POLL` starts one and goes on with the read. The poll byte and the absence of
other effects are the spec's decision D10. -/
def Obligations.PollReadAnswersHighestLine : Prop :=
  ∀ (s : State) (p : Nat) (q : Pic), s.pics[p]? = some q →
    (q.fsm = .poll →
      (∀ n, q.Selects n → StoresPic (.pollRead p) s p { q with fsm := .idle } [] [0x80 ||| BitVec.ofNat 8 n.val]) ∧
      (q.irr &&& ~~~q.ocw1 &&& ~~~q.isr = 0 → StoresPic (.pollRead p) s p { q with fsm := .idle } [] [0x07])) ∧
    (q.fsm = .idle →
      StoresPic (.poll p) s p { q with ocw3 := 0x0C, fsm := .poll } [.portRead (.pic p) 1] [])

/-- R174, R175: outside `Poll` the data port reads as the mask, and the command port as ISR where OCW3 selects it,
else as IRR; no state changes. Both reads are the spec's decision D9. -/
def Obligations.PicReads : Prop :=
  ∀ (s : State) (p : Nat) (q : Pic), s.pics[p]? = some q → q.fsm ≠ .poll →
    CompletesQuietly (.maskRead p) s [] [q.ocw1] [] ∧
    CompletesQuietly (.irrIsrRead p) s [] [if q.ocw3 &&& 0x03 = 0x03 then q.isr else q.irr] []

/-- R176, R177, R161: the ELCR is written and read back with nothing re-sampled; an offset that is no port of a PIC or
of an ELCR ignores writes and reads as 0xFF, with a diagnostic. These are the spec's decisions D2 and D14; that
the latter holds of a PIC that does not exist too is notes/assumptions/16.md. -/
def Obligations.ElcrAndBadPorts : Prop :=
  (∀ (s : State) (p : Nat) (q : Pic) (b : Byte), s.pics[p]? = some q →
    StoresPic (.elcrWrite p b) s p { q with elcr := b } [] [] ∧
    CompletesQuietly (.elcrRead p) s [] [q.elcr] []) ∧
  (∀ (s : State) (dev : PortDevice) (off : Nat) (b : Byte), badOffset dev off = true →
    CompletesQuietly (.picBadPort dev off (.write b)) s [] [] [.picBadPort] ∧
    CompletesQuietly (.picBadPort dev off .read) s [] [0xFF] [.picBadPort])

/-! ## PIC: lines and acknowledges -/

/-- R178: on a level-triggered line IRR and the edge latch follow the line, and the output is recomputed. The edge
latch here and when the receiver is told are the spec's decisions D14 and D7. -/
def Obligations.LevelLineFollows : Prop :=
  ∀ (s : State) (p : Nat) (q : Pic) (n : Fin 8) (a : Bool), s.pics[p]? = some q → q.LevelTriggered n →
    ∃ irr edge : Byte,
      (∀ k : Fin 8, irr.getLsbD k.val = if k = n then a else q.irr.getLsbD k.val) ∧
      (∀ k : Fin 8, edge.getLsbD k.val = if k = n then a else q.edge.getLsbD k.val) ∧
      CompletesPic (.lineLevel p n a) s p q { q with irr := irr, edge := edge } [] []

/-- R179: on an edge-triggered line a rising edge sets the IRR bit, nothing clears it here, and the latch follows the
line. When the receiver is told is the spec's decision D7. -/
def Obligations.EdgeLineLatches : Prop :=
  ∀ (s : State) (p : Nat) (q : Pic) (n : Fin 8) (a : Bool), s.pics[p]? = some q → ¬q.LevelTriggered n →
    ∃ irr edge : Byte,
      (∀ k : Fin 8, irr.getLsbD k.val =
        (q.irr.getLsbD k.val || (decide (k = n) && a && !q.edge.getLsbD n.val))) ∧
      (∀ k : Fin 8, edge.getLsbD k.val = if k = n then a else q.edge.getLsbD k.val) ∧
      CompletesPic (.lineEdge p n a) s p q { q with irr := irr, edge := edge } [] []

/-- R183 to R186: an acknowledge takes the lowest unserviced line: its IRR bit falls unless it is level-triggered, and
its ISR bit rises unless auto-EOI is set. The vector is the base with the line number; where a secondary PIC is
chained on the line the agent goes on with the acknowledge of the secondary instead; with nothing unserviced line 7's
vector is answered and nothing changes. The base of the vector, the answer with nothing unserviced, when the receiver is
told and the chaining are the spec's decisions D12, D11, D7 and D40; a chained acknowledge is the agent's next step
(notes/assumptions/11.md). -/
def Obligations.AcknowledgeTakesLowestLine : Prop :=
  ∀ (s : State) (p : Nat) (q : Pic), s.pics[p]? = some q →
    (∀ n : Fin 8, q.Selects n →
      ∃ irr isr : Byte,
        (∀ k : Fin 8, irr.getLsbD k.val = true ↔ q.irr.getLsbD k.val = true ∧ (k = n → q.LevelTriggered n)) ∧
        (∀ k : Fin 8, isr.getLsbD k.val = true ↔ q.isr.getLsbD k.val = true ∨ (k = n ∧ q.icw4 &&& 0x02 = 0)) ∧
        (q.secondary.get n = none →
          CompletesPic (.inta p) s p q { q with irr := irr, isr := isr } []
            [(q.icw2 &&& 0xF8) ||| BitVec.ofNat 8 n.val]) ∧
        (∀ sec, q.secondary.get n = some sec →
          CompletesPic (.intaCascade p) s p q { q with irr := irr, isr := isr } [.inta sec] [])) ∧
    (q.irr &&& ~~~q.ocw1 &&& ~~~q.isr = 0 →
      CompletesQuietly (.intaSpurious p) s [] [(q.icw2 &&& 0xF8) ||| 0x07] [])

/-- R188, R183, R168, R32: with lines 3 and 5 pending and unmasked on edge-triggered lines, the acknowledge answers the
vector of line 3 and sets its ISR bit, and after a non-specific EOI the next one answers that of line 5, as it does without
the EOI. R188 names the lines only: that the vector is `(icw2 & 0xF8) | n` is the spec's decision D12 (R97, R105), and that
the EOI is not needed the spec derives from R32. -/
def Obligations.PriorityThreeThenFive : Prop :=
  ∀ (s : State) (p : Nat) (q : Pic), s.pics[p]? = some q → q.fsm = .idle → q.irr = 0x28 → q.isr = 0 →
    q.ocw1 &&& 0x28 = 0 → q.icw4 &&& 0x02 = 0 → ¬q.LevelTriggered 3 → q.secondary.get 3 = none →
    q.secondary.get 5 = none →
    ∃ t u v w q', exec (.inta p) s = .next t ∧ Answered [(q.icw2 &&& 0xF8) ||| 0x03] [] s t ∧
      t.pics[p]? = some q' ∧ q'.isr = 0x08 ∧ q'.irr = 0x20 ∧
      exec (.ocw2Eoi p 0x20) t = .next u ∧
      exec (.inta p) u = .next v ∧ Answered [(q.icw2 &&& 0xF8) ||| 0x05] [] u v ∧
      exec (.inta p) t = .next w ∧ Answered [(q.icw2 &&& 0xF8) ||| 0x05] [] t w

/-- R189: on an edge-triggered line two pulses without an acknowledge leave the one request they make; on a
level-triggered line IRR is the level of the line after each call. -/
def Obligations.EdgeAgainstLevel : Prop :=
  ∀ (s : State) (p : Nat) (q : Pic) (n : Fin 8), s.pics[p]? = some q →
    (¬q.LevelTriggered n → q.edge.getLsbD n.val = false →
      ∃ t u q' q'', runRows [.lineEdge p n true, .lineEdge p n false] s = .next t ∧
        runRows [.lineEdge p n true, .lineEdge p n false] t = .next u ∧
        t.pics[p]? = some q' ∧ u.pics[p]? = some q'' ∧ q'.irr.getLsbD n.val = true ∧ q''.irr = q'.irr) ∧
    (q.LevelTriggered n → ∀ a b : Bool,
      ∃ t u q' q'', exec (.lineLevel p n a) s = .next t ∧ exec (.lineLevel p n b) t = .next u ∧
        t.pics[p]? = some q' ∧ u.pics[p]? = some q'' ∧ q'.irr.getLsbD n.val = a ∧ q''.irr.getLsbD n.val = b)

/-- R190 (e): no operation of the block but an acknowledge of that PIC clears the request of an edge-triggered line.
The spec derives it (R190). -/
def Obligations.EdgeRequestOutlastsAllButAcknowledge : Prop :=
  ∀ (i : Instr) (s t : State) (p : Nat) (q q' : Pic) (n : Fin 8), exec i s = .next t → s.pics[p]? = some q →
    t.pics[p]? = some q' → ¬q.LevelTriggered n → q.irr.getLsbD n.val = true → i.acknowledgesPic p = false →
    q'.irr.getLsbD n.val = true

/-- R164: every transition of the command machine of a PIC is caused by an access to one of its ports; no line
assertion, acknowledge or operation on another device makes one. It is the sentence of R164 before its table; the
reads and refusals it covers are the spec's decisions D8 and D9. -/
def Obligations.CommandMachineMovesByPortAccess : Prop :=
  ∀ (i : Instr) (s t : State) (p : Nat) (q q' : Pic), exec i s = .next t → s.pics[p]? = some q →
    t.pics[p]? = some q' → q'.fsm ≠ q.fsm → i.accessesPic p = true

/-! ## Splitting and dispatch -/

/-- R69, R131, R132, R133, R161: a wide access at a byte-wide port device is its byte accesses at ascending offsets,
byte `k` of the datum at offset `a + k`. The order is the spec's decision D18. -/
def Obligations.PortAccessesAreSplit : Prop :=
  ∀ (s : State) (dev : PortDevice) (a sz : Nat), sizeOk sz = true →
    (∀ v : Quad, dataOk sz v = true →
      CompletesQuietly (.splitWrite (.port dev) a sz v 1) s
        ((List.range sz).map fun k => .portWrite dev (a + k) ((v >>> (8 * k)).truncate 8)) [] []) ∧
    CompletesQuietly (.splitRead (.port dev) a sz 1) s
      ((List.range sz).map fun k => .portRead dev (a + k)) [] []

/-- R67, R71, R131, R132, R133: an access of a host block of any word size is one word call, a step of its own, for
each word it overlaps, in ascending order. Where nothing falls between them, the calls of a write store byte `k` of the
datum at host byte `(a + k) mod size` (of a datum that is longer than the block, which bytes stay unchanged is all that
is said), and change no other byte of any memory, no block's size, permissions or word size, not the number of blocks,
and nothing else; the calls of a read answer those bytes, lowest first, and change nothing. The order is the spec's
decision D18 and the map its D38; the word call as the atomic step is notes/assumptions/15.md. -/
def Obligations.HostMemoryAccess : Prop :=
  ∀ (s : State) (m a sz w : Nat) (b : HostBlock), s.hostBlocks[m]? = some b → sizeOk sz = true → sizeOk w = true →
    ∃ xs : List Nat, xs.Pairwise (· < ·) ∧
      (∀ x, x ∈ xs ↔ w ∣ x ∧ ∃ k, k < sz ∧ x ≤ a + k ∧ a + k < x + w) ∧
      CompletesQuietly (.splitRead (.memory m) a sz w) s (xs.map fun x => .wordRead m w x (laneMask a sz w x)) [] [] ∧
      (∃ t, runEvents (xs.map fun x => .wordRead m w x (laneMask a sz w x)) s = .next t ∧
        Answered ((List.range sz).map fun k => s.hostByte m ((a + k) % b.size)) [] s t ∧ Continues [] s t ∧
        QuietFrame s t) ∧
      ∀ v : Quad, dataOk sz v = true →
        CompletesQuietly (.splitWrite (.memory m) a sz v w) s
          (xs.map fun x => .wordWrite m w x (laneMask a sz w x) (laneData a sz w v x)) [] [] ∧
        ∃ t, runEvents (xs.map fun x => .wordWrite m w x (laneMask a sz w x) (laneData a sz w v x)) s = .next t ∧
          (sz ≤ b.size → ∀ k, k < sz → t.hostByte m ((a + k) % b.size) = (v >>> (8 * k)).truncate 8) ∧
          (∀ x, (∀ k, k < sz → x ≠ (a + k) % b.size) → t.hostByte m x = s.hostByte m x) ∧
          (∀ m' x, m' ≠ m → t.hostByte m' x = s.hostByte m' x) ∧ (∀ d x, t.storeByte d x = s.storeByte d x) ∧
          (t.hostBlocks.map fun c => (c.size, c.permissions, c.word)) =
            (s.hostBlocks.map fun c => (c.size, c.permissions, c.word)) ∧
          SamePics s t ∧ SameChannel s t ∧ SameAgents s t ∧ Continues [] s t ∧ Answered [] [] s t ∧
          t.io = s.io ∧ t.mem = s.mem ∧ t.registrations = s.registrations

/-- R146: for every address, every size and every word size, and any handler that returns in each touched lane what the
write put there, the split read gives back the value that was split. -/
def Obligations.SplitRoundTrip : Prop :=
  ∀ (a sz w : Nat) (v : Quad) (word : Nat → Quad), sizeOk sz = true → 0 < w → w ≤ 8 →
    dataOk sz v = true →
    (∀ c ∈ splitWriteCalls a sz w v, ∀ j, j < w → c.mask.getLsbD (8 * j) = true →
      quadByte (word c.address) j = quadByte c.data j) →
    assembleRead a sz w ((splitReadCalls a sz w).map fun c => (c.1, word c.1)) = v

/-- R134: registration refuses an empty range, faults on an overlap, and otherwise adds the range, maps it if an
engine is attached, and answers a new attached handle. The exclusive limit, the refusal and the fault in every build
are the spec's decisions D17 and D36; handle numbers are notes/assumptions/23.md. That a handler which does not exist is
refused, after those two checks, is the model's choice (notes/assumptions/16.md). -/
def Obligations.RegisterAddressRange : Prop :=
  ∀ (s : State) (sp : Space) (base limit off : Nat) (h : Handler),
    (limit ≤ base → exec (.reg sp base limit h off) s = .refused .emptyRange) ∧
    (base < limit → (∃ q ∈ (s.dispatcher sp).ranges, q.beginAddress < limit ∧ base < q.endAddress) →
      exec (.reg sp base limit h off) s = .fault .configurationConflict) ∧
    (base < limit → (∀ q ∈ (s.dispatcher sp).ranges, ¬(q.beginAddress < limit ∧ base < q.endAddress)) →
      ∀ what, s.absentHandler h = some what → exec (.reg sp base limit h off) s = .refused (.absentDevice what)) ∧
    (base < limit → (∀ q ∈ (s.dispatcher sp).ranges, ¬(q.beginAddress < limit ∧ base < q.endAddress)) →
      s.absentHandler h = none →
      ∃ t, exec (.reg sp base limit h off) s = .next t ∧
        (∀ r, r ∈ (t.dispatcher sp).ranges ↔ r = AddressRange.mk base limit off h ∨ r ∈ (s.dispatcher sp).ranges) ∧
        (t.dispatcher sp).engine = (s.dispatcher sp).engine ∧
        (∀ r, r ∈ (t.dispatcher sp).mapped ↔
          ((s.dispatcher sp).engine.isSome = true ∧ r = AddressRange.mk base limit off h) ∨
            r ∈ (s.dispatcher sp).mapped) ∧
        (t.dispatcher sp).engineMap = (s.dispatcher sp).engineMap ++
          (if (s.dispatcher sp).engine.isSome then mappingsOf s.hostBlocks (AddressRange.mk base limit off h) else []) ∧
        t.registrations = s.registrations ++ [Registration.mk sp (AddressRange.mk base limit off h) true] ∧
        (t.thread s.active).reply.handle = some s.registrations.length ∧ Continues [] s t ∧ DispatcherFrame sp s t)

/-- R135, R37: `release` detaches a handle and leaves the range; destruction of an attached handle is
`unregisterAddressRange` of its range, which undoes the mapping too, with the handle detached, and of a detached one it
does nothing; a move passes `attached` to a new handle. The move is derived by the spec (R135); how handles are numbered,
and that a destroyed handle stays as a detached one, is notes/assumptions/23.md. -/
def Obligations.RegistrationHandles : Prop :=
  ∀ (s : State) (k : Nat) (g : Registration), s.registrations[k]? = some g →
    (∃ t, exec (.release k .release) s = .next t ∧ t.registrations = s.registrations.set k { g with attached := false } ∧
      (∀ sp, t.dispatcher sp = s.dispatcher sp) ∧ DispatcherFrame g.space s t) ∧
    (g.attached = true →
      ∃ t u, exec (.release k .destroy) s = .next t ∧ exec (.unreg g.space g.range) s = .next u ∧
        t = { u with registrations := s.registrations.set k { g with attached := false } } ∧
        (∀ r, r ∈ (t.dispatcher g.space).ranges ↔ r ∈ (s.dispatcher g.space).ranges ∧ r ≠ g.range) ∧
        DispatcherFrame g.space s t) ∧
    (g.attached = false → exec (.release k .destroy) s = .next s) ∧
    (∃ t, exec (.release k .move) s = .next t ∧
      t.registrations = s.registrations.set k { g with attached := false } ++ [g] ∧
      (t.thread s.active).reply.handle = some s.registrations.length ∧ (∀ sp, t.dispatcher sp = s.dispatcher sp) ∧
      DispatcherFrame g.space s t)

/-- R136, R138: after `unregisterAddressRange` no address of the range is resolved: a read of it answers all ones with
a diagnostic, a write is dropped; with an engine attached and the range mapped exactly the range's mappings are
withdrawn, else every mapping stays, and the engine stays attached. The width of all ones is derived by the spec
(R138). -/
def Obligations.UnregisterAddressRange : Prop :=
  ∀ (s : State) (sp : Space) (r : AddressRange), (s.dispatcher sp).Inv → r ∈ (s.dispatcher sp).ranges →
    ∃ t, exec (.unreg sp r) s = .next t ∧
      (∀ q, q ∈ (t.dispatcher sp).ranges ↔ q ∈ (s.dispatcher sp).ranges ∧ q ≠ r) ∧
      (t.dispatcher sp).engine = (s.dispatcher sp).engine ∧
      ((s.dispatcher sp).engine ≠ none → r ∈ (s.dispatcher sp).mapped →
        (∀ q, q ∈ (t.dispatcher sp).mapped ↔ q ∈ (s.dispatcher sp).mapped ∧ q ≠ r) ∧
        ∀ x, x ∈ (t.dispatcher sp).engineMap ↔
          x ∈ (s.dispatcher sp).engineMap ∧ x ∉ mappingsOf s.hostBlocks r) ∧
      ((s.dispatcher sp).engine = none ∨ r ∉ (s.dispatcher sp).mapped →
        (t.dispatcher sp).mapped = (s.dispatcher sp).mapped ∧
        (t.dispatcher sp).engineMap = (s.dispatcher sp).engineMap) ∧
      t.registrations = s.registrations ∧ DispatcherFrame sp s t ∧
      ∀ a sz, r.beginAddress ≤ a → a < r.endAddress → sizeOk sz = true →
        CompletesQuietly (.inPort sp a sz) t [] (List.replicate sz 0xFF) [.unresolvedAddress] ∧
        ∀ v, CompletesQuietly (.outPort sp a sz v) t [] [] [.unresolvedAddress]

/-- R137, R138, R139: an address resolves to the handler of the range that contains it, at the address relative to the
range plus the range's offset, and the access goes on as one access of that handler; an address in no range is
unresolved: a read answers all ones, a write is dropped, with a diagnostic. The relative address is the spec's
decision D17, the width of all ones derived (R138); the route that is answered is notes/assumptions/24.md. -/
def Obligations.DispatchByRange : Prop :=
  ∀ (s : State) (sp : Space) (a sz : Nat) (v : Quad), (s.dispatcher sp).Inv → sizeOk sz = true →
    (∀ r ∈ (s.dispatcher sp).ranges, r.beginAddress ≤ a → a < r.endAddress →
      (∃ t, exec (.resolve sp a) s = .next t ∧
        (t.thread s.active).reply.route = some (.to r.handler (a - r.beginAddress + r.offset)) ∧ Continues [] s t ∧
        QuietFrame s t) ∧
      CompletesQuietly (.inPort sp a sz) s
        [.splitRead r.handler (a - r.beginAddress + r.offset) sz (s.wordSize r.handler)] [] [] ∧
      CompletesQuietly (.outPort sp a sz v) s
        [.splitWrite r.handler (a - r.beginAddress + r.offset) sz v (s.wordSize r.handler)] [] []) ∧
    ((∀ r ∈ (s.dispatcher sp).ranges, ¬(r.beginAddress ≤ a ∧ a < r.endAddress)) →
      (∃ t, exec (.resolve sp a) s = .next t ∧ (t.thread s.active).reply.route = some .unresolved ∧ Continues [] s t ∧
        QuietFrame s t) ∧
      CompletesQuietly (.inPort sp a sz) s [] (List.replicate sz 0xFF) [.unresolvedAddress] ∧
      CompletesQuietly (.outPort sp a sz v) s [] [] [.unresolvedAddress])

/-- R140, R141: attaching an engine maps every registered range and gives the engine the tiles of those with host
memory, which cover each byte of the range once and no other; a second engine is refused; detaching withdraws them
all. The tiles and the refusal are the spec's decisions D38 and D8; the callback is notes/assumptions/25.md. -/
def Obligations.EngineMappings : Prop :=
  ∀ (s : State) (sp : Space) (engine base limit : Nat),
    ((s.dispatcher sp).engine = none →
      ∃ t, exec (.establishMappings sp engine base limit) s = .next t ∧
        (t.dispatcher sp).engine = some (EngineBinding.mk engine base limit) ∧
        (t.dispatcher sp).ranges = (s.dispatcher sp).ranges ∧
        (∀ r, r ∈ (t.dispatcher sp).mapped ↔ r ∈ (s.dispatcher sp).mapped ∨ r ∈ (s.dispatcher sp).ranges) ∧
        (t.dispatcher sp).engineMap =
          (s.dispatcher sp).engineMap ++ (s.dispatcher sp).ranges.flatMap (mappingsOf s.hostBlocks) ∧
        t.registrations = s.registrations ∧ DispatcherFrame sp s t) ∧
    ((s.dispatcher sp).engine ≠ none →
      exec (.establishMappings sp engine base limit) s = .refused .engineAlreadyAttached) ∧
    (∃ t, exec (.removeMappings sp) s = .next t ∧ (t.dispatcher sp).engine = none ∧ (t.dispatcher sp).mapped = [] ∧
      (t.dispatcher sp).ranges = (s.dispatcher sp).ranges ∧
      (∀ x, x ∈ (t.dispatcher sp).engineMap ↔
        x ∈ (s.dispatcher sp).engineMap ∧ ∀ r ∈ (s.dispatcher sp).mapped, x ∉ mappingsOf s.hostBlocks r) ∧
      t.registrations = s.registrations ∧ DispatcherFrame sp s t) ∧
    (∀ (r : AddressRange) (m : Nat) (b : HostBlock) (a : Nat), r.handler = .memory m → s.hostBlocks[m]? = some b →
      0 < b.size →
      ((r.beginAddress ≤ a ∧ a < r.endAddress) ↔ ∃ x ∈ mappingsOf s.hostBlocks r, x.base ≤ a ∧ a < x.limit) ∧
      ∀ x ∈ mappingsOf s.hostBlocks r, x.block = m ∧ x.permissions = b.permissions ∧ x.limit - x.base ≤ b.size ∧
        b.size ∣ x.base - r.beginAddress)

/-! ## ATA: the bus side -/

/-- R213, R214, R215, R216, R255: with BUSY clear a write at index 1 to 6 stores the byte in its register; with BUSY set
it changes nothing of the device and logs a diagnostic. The spec derives R255; that the demux output is brought up to
date after these writes too is notes/assumptions/21.md. -/
def Obligations.RegisterWritesStore : Prop :=
  ∀ (s : State) (d : Drive) (b : Byte),
    ((s.device d).regs.status &&& 0x80 = 0 →
      CompletesDevice (.ataFeatureW d b) s d
        { s.device d with regs := { (s.device d).regs with feature := b } } [] [] ∧
      CompletesDevice (.ataSectorCountW d b) s d
        { s.device d with regs := { (s.device d).regs with sectorCount := b } } [] [] ∧
      CompletesDevice (.ataSectorNumberW d b) s d
        { s.device d with regs := { (s.device d).regs with sectorNumber := b } } [] [] ∧
      CompletesDevice (.ataCylinderLowW d b) s d
        { s.device d with regs := { (s.device d).regs with cylinderLow := b } } [] [] ∧
      CompletesDevice (.ataCylinderHighW d b) s d
        { s.device d with regs := { (s.device d).regs with cylinderHigh := b } } [] [] ∧
      CompletesDevice (.ataDriveHeadW d b) s d
        { s.device d with regs := { (s.device d).regs with driveHead := b } } [] []) ∧
    ((s.device d).regs.status &&& 0x80 ≠ 0 → ∀ i, 1 ≤ i → i ≤ 6 →
      CompletesDevice (.ataGatedW d i b) s d (s.device d) [] [.ataBusy])

/-- R221, R218: with BUSY set a read at index 0 to 6 answers the status register and changes nothing of the device,
and a command write is refused. The absence of side effects and the refusal are the spec's decisions D23 and D22; that
the demux output is brought up to date after such a read too is notes/assumptions/21.md. -/
def Obligations.BusyRedirectsReads : Prop :=
  ∀ (s : State) (d : Drive) (b : Byte), (s.device d).regs.status &&& 0x80 ≠ 0 →
    (∀ i, i ≤ 6 → CompletesDevice (.ataBusyR d i) s d (s.device d) [(s.device d).regs.status] []) ∧
    exec (.ataCommandW d b) s = .refused .ataCommandWhileBusy

/-- R40: while BUSY is set no operation but a step of the device's own worker changes a register of the device other than
status and command. -/
def Obligations.BusyProtectsRegisters : Prop :=
  ∀ (i : Instr) (s t : State) (d : Drive), exec i s = .next t → (s.device d).regs.status &&& 0x80 ≠ 0 →
    i.worksFor d = false →
    (t.device d).regs =
      { (s.device d).regs with status := (t.device d).regs.status, command := (t.device d).regs.command }

/-- R218: with BUSY clear a command write latches the command, sets BUSY, asks the worker and lowers the interrupt.
The lowering of the interrupt is the spec's decision D23. -/
def Obligations.CommandWriteLatches : Prop :=
  ∀ (s : State) (d : Drive) (b : Byte), (s.device d).regs.status &&& 0x80 = 0 →
    CompletesDevice (.ataCommandW d b) s d
      { s.device d with
        regs := { (s.device d).regs with command := b, status := (s.device d).regs.status ||| 0x80 },
        commandRequested := true, intrq := false } [] []

/-- R227, R228, R121, R39: during a write transfer a data write puts one byte, or two in 16-bit mode, at the cursor and
advances it; at the end of the chunk DRQ falls, BUSY rises and the worker is asked to go on; outside one it is ignored
with a diagnostic. BUSY at the end of the chunk and the idle case are the spec's decisions D26 and D31; unfilled bytes
are notes/assumptions/8.md and the capacity 30.md. A 16-bit access that begins on the last byte of a chunk, which stores a
byte beyond the chunk and leaves the cursor at the length, is the model's reading (notes/assumptions/18.md);
that the demux output is brought up to date after a data write too is 21.md. -/
def Obligations.DataWriteFillsBuffer : Prop :=
  ∀ (s : State) (d : Drive) (v : Half),
    ((s.device d).xfer = .pioWrite →
      ∃ buffer : List Host.Cell,
        (∀ k, bufferByte d buffer k =
          if 131072 ≤ k then bufferByte d (s.device d).buffer k
          else if k = (s.device d).cursor then v.truncate 8
          else if k = (s.device d).cursor + 1 ∧ (s.device d).pio8 = false then (v >>> 8).truncate 8
          else bufferByte d (s.device d).buffer k) ∧
        ∀ next, next = min ((s.device d).cursor + (if (s.device d).pio8 then 1 else 2)) (s.device d).length →
          (next < (s.device d).length →
            CompletesDevice (.ataDataW d v) s d { s.device d with buffer := buffer, cursor := next } [] []) ∧
          ((s.device d).length ≤ next →
            CompletesDevice (.ataDataW d v) s d
              { s.device d with
                buffer := buffer, cursor := next, xfer := .idle, continueRequested := true,
                regs := { (s.device d).regs with status := ((s.device d).regs.status &&& ~~~0x08) ||| 0x80 } }
              [] [])) ∧
    ((s.device d).xfer ≠ .pioWrite →
      CompletesDevice (.ataDataWIdle d v) s d (s.device d) [] [.ataNoTransfer])

/-- R226, R228, R121: during a read transfer with BUSY clear a data read answers the byte, or the two bytes, at the
cursor and advances it; at the end of the chunk DRQ falls, and if sectors are left BUSY rises and the worker is asked
for the next chunk; outside one it answers 0xFFFF with a diagnostic. BUSY at the end of the chunk and the idle case
are the spec's decisions D26 and D31; the two bytes answered are notes/assumptions/26.md. A 16-bit access that begins on
the last byte of a chunk, which answers the byte beyond the chunk too and leaves the cursor at the length, is the model's
reading (notes/assumptions/18.md); that the demux output is brought up to date after a data read too is 21.md. -/
def Obligations.DataReadDrainsBuffer : Prop :=
  ∀ (s : State) (d : Drive), (s.device d).regs.status &&& 0x80 = 0 →
    ((s.device d).xfer = .pioRead →
      ∀ next, next = min ((s.device d).cursor + (if (s.device d).pio8 then 1 else 2)) (s.device d).length →
      ∀ bytes, bytes = [bufferByte d (s.device d).buffer (s.device d).cursor,
          if (s.device d).pio8 then 0x00 else bufferByte d (s.device d).buffer ((s.device d).cursor + 1)] →
      (next < (s.device d).length →
        CompletesDevice (.ataDataR d) s d { s.device d with cursor := next } bytes []) ∧
      ((s.device d).length ≤ next →
        ((s.device d).op = none →
          CompletesDevice (.ataDataR d) s d
            { s.device d with
              cursor := next, xfer := .idle,
              regs := { (s.device d).regs with status := (s.device d).regs.status &&& ~~~0x08 } } bytes []) ∧
        ∀ op, (s.device d).op = some op →
          (op.remaining ≤ (s.device d).length / 512 →
            CompletesDevice (.ataDataR d) s d
              { s.device d with
                cursor := next, xfer := .idle, op := none,
                regs := { (s.device d).regs with status := (s.device d).regs.status &&& ~~~0x08 } } bytes []) ∧
          ((s.device d).length / 512 < op.remaining →
            CompletesDevice (.ataDataR d) s d
              { s.device d with
                cursor := next, xfer := .idle, continueRequested := true,
                op := some { op with
                  lba := op.lba + (s.device d).length / 512,
                  remaining := op.remaining - (s.device d).length / 512 },
                regs := { (s.device d).regs with
                  status := ((s.device d).regs.status &&& ~~~0x08) ||| 0x80 } } bytes []))) ∧
    ((s.device d).xfer ≠ .pioRead →
      CompletesDevice (.ataDataRIdle d) s d (s.device d) [0xFF, 0xFF] [.ataNoTransfer])

/-- R226, R256: with one sector in the buffer, no operation in progress and 16-bit transfers, 256 data reads answer
its 512 bytes in order and end the transfer with DRQ clear; after each of the first 255 the cursor has moved by 2. The
spec derives it (R256); the two bytes answered are notes/assumptions/26.md. -/
def Obligations.SectorIsReadWordByWord : Prop :=
  ∀ (s : State) (d : Drive), (s.device d).regs.status = 0x58 → (s.device d).xfer = .pioRead →
    (s.device d).pio8 = false → (s.device d).cursor = 0 → (s.device d).length = 512 → (s.device d).op = none →
    (∀ n, n < 256 → ∃ t, runRows (List.replicate n (.ataDataR d)) s = .next t ∧ (t.device d).cursor = 2 * n ∧
      (t.device d).xfer = .pioRead ∧
      Answered ((List.range (2 * n)).map (bufferByte d (s.device d).buffer)) [] s t) ∧
    ∃ t, runRows (List.replicate 256 (.ataDataR d)) s = .next t ∧ (t.device d).xfer = .idle ∧
      (t.device d).regs.status = 0x50 ∧ Answered ((List.range 512).map (bufferByte d (s.device d).buffer)) [] s t

/-- R219, R220: a status read answers status and lowers the interrupt, BUSY or not; with BUSY clear a read at index 1
to 6 answers its register and changes nothing of the device. That a status read lowers the interrupt is the spec's
decision D23; that the demux output is brought up to date after the other reads too is notes/assumptions/21.md. -/
def Obligations.RegisterReads : Prop :=
  ∀ (s : State) (d : Drive),
    CompletesDevice (.ataStatusR d) s d { s.device d with intrq := false } [(s.device d).regs.status] [] ∧
    ((s.device d).regs.status &&& 0x80 = 0 →
      CompletesDevice (.ataErrorR d) s d (s.device d) [(s.device d).regs.error] [] ∧
      CompletesDevice (.ataSectorCountR d) s d (s.device d) [(s.device d).regs.sectorCount] [] ∧
      CompletesDevice (.ataSectorNumberR d) s d (s.device d) [(s.device d).regs.sectorNumber] [] ∧
      CompletesDevice (.ataCylinderLowR d) s d (s.device d) [(s.device d).regs.cylinderLow] [] ∧
      CompletesDevice (.ataCylinderHighR d) s d (s.device d) [(s.device d).regs.cylinderHigh] [] ∧
      CompletesDevice (.ataDriveHeadR d) s d (s.device d) [(s.device d).regs.driveHead] [])

/-- R217, R222, R223: an index the register blocks do not have ignores writes and reads all ones with a diagnostic;
Alternate Status answers status and changes nothing of the device; Device Control sets the interrupt gate and, with the
reset bit, asks for a reset with BUSY set. The control block and the reset request are the spec's decisions D21, D24 and D25; the
two bytes of a bad index are notes/assumptions/26.md, and that the demux output is brought up to date after an Alternate
Status read or a bad index too is 21.md. -/
def Obligations.BadIndexAndControlBlock : Prop :=
  ∀ (s : State) (d : Drive) (b : Byte),
    (∀ (blk : AtaBlock) (i : Nat) (v : Half), badIndex blk i = true →
      CompletesDevice (.ataBadIndex d blk i (.write v)) s d (s.device d) [] [.ataBadRegister] ∧
      CompletesDevice (.ataBadIndex d blk i .read) s d (s.device d) [0xFF, 0xFF] [.ataBadRegister]) ∧
    CompletesDevice (.ataAltStatusR d) s d (s.device d) [(s.device d).regs.status] [] ∧
    (b &&& 0x04 = 0 →
      CompletesDevice (.ataDeviceControlW d b) s d { s.device d with nIEN := b &&& 0x02 != 0 } [] []) ∧
    (b &&& 0x04 ≠ 0 →
      CompletesDevice (.ataDeviceControlW d b) s d
        { s.device d with
          nIEN := b &&& 0x02 != 0, resetRequested := true,
          regs := { (s.device d).regs with status := (s.device d).regs.status ||| 0x80 } } [] [])

/-! ## ATA: commands -/

/-- R119, R247: the sector a request names: in LBA mode the 28 bits of the address registers; in CHS mode the product
of the geometry in force, and an abort where the sector or the head is out of range. The geometry in force and the
abort are the spec's decision D28. -/
def Obligations.SectorAddress : Prop :=
  ∀ (dev : AtaDevice) (rec : RegFile) (g : Geometry),
    (rec.driveHead &&& 0x40 ≠ 0 →
      dev.sectorAddress rec = some ((rec.driveHead.toNat % 16) * 16777216 + rec.cylinderHigh.toNat * 65536 +
        rec.cylinderLow.toNat * 256 + rec.sectorNumber.toNat)) ∧
    (rec.driveHead &&& 0x40 = 0 → (dev.geometry = some g ∨ dev.geometry = none ∧ dev.disk.defaultGeometry = g) →
      (rec.sectorNumber.toNat = 0 ∨ g.sectorsPerTrack < rec.sectorNumber.toNat ∨
          g.heads ≤ rec.driveHead.toNat % 16 →
        dev.sectorAddress rec = none) ∧
      (0 < rec.sectorNumber.toNat → rec.sectorNumber.toNat ≤ g.sectorsPerTrack →
        rec.driveHead.toNat % 16 < g.heads →
        dev.sectorAddress rec = some (((rec.cylinderHigh.toNat * 256 + rec.cylinderLow.toNat) * g.heads +
          rec.driveHead.toNat % 16) * g.sectorsPerTrack + (rec.sectorNumber.toNat - 1))))

/-- R240, R241, R246, R251, R252, R233: the commands that move no data: what each changes besides its result, and when
it aborts. The completion and the operands of the three settings are the spec's decisions D22, D29 and D30; that
the demux output is brought up to date after an abort too, which raises no interrupt, is notes/assumptions/21.md. -/
def Obligations.CommandsWithoutData : Prop :=
  ∀ (s : State) (d : Drive),
    CompletesDevice (.recalibrate d) s d (s.device d).afterSuccess [] [] ∧
    CompletesDevice (.seek d) s d (s.device d).afterSuccess [] [] ∧
    ((s.device d).regs.sectorCount = 0 →
      CompletesDevice (.initializeDriveParameters d) s d (s.device d).afterAbort [] []) ∧
    ((s.device d).regs.sectorCount ≠ 0 →
      CompletesDevice (.initializeDriveParameters d) s d
        { (s.device d).afterSuccess with
          geometry := some (Geometry.mk ((s.device d).regs.driveHead.toNat % 16 + 1)
            (s.device d).regs.sectorCount.toNat) } [] []) ∧
    ((s.device d).regs.sectorCount.toNat ≤ (s.device d).disk.maxMultiple →
      CompletesDevice (.setMultipleMode d) s d
        { (s.device d).afterSuccess with multipleBlock := (s.device d).regs.sectorCount.toNat } [] []) ∧
    ((s.device d).disk.maxMultiple < (s.device d).regs.sectorCount.toNat →
      CompletesDevice (.setMultipleMode d) s d (s.device d).afterAbort [] []) ∧
    ((s.device d).regs.feature = 0x01 →
      CompletesDevice (.setFeatures d) s d { (s.device d).afterSuccess with pio8 := true } [] []) ∧
    ((s.device d).regs.feature = 0x81 →
      CompletesDevice (.setFeatures d) s d { (s.device d).afterSuccess with pio8 := false } [] []) ∧
    ((s.device d).regs.feature ≠ 0x01 → (s.device d).regs.feature ≠ 0x81 →
      CompletesDevice (.setFeatures d) s d (s.device d).afterAbort [] []) ∧
    ∀ opcode, knownOpcode opcode = false →
      CompletesDevice (.ataUnknownCommand d opcode) s d (s.device d).afterAbort [] []

/-- R242, R244, R120, R237: a read of sectors loads its first chunk from the store and opens a read transfer of it; it
aborts on an invalid address, past the capacity or, for READ MULTIPLE, with multiple mode off; a store access that the
host fails is a fault. The completion is the spec's decision D22, the address and the count D28,
the abort with multiple mode off D29, the result bytes D30; the oracle of host failures is notes/assumptions/9.md,
and that the demux output is brought up to date after an abort too is 21.md. -/
def Obligations.ReadCommandsLoadFirstChunk : Prop :=
  ∀ (s : State) (d : Drive) (i : Instr) (chunk n : Nat),
    (i = .readSectors d ∨ i = .readSectorsNoRetry d) ∧ chunk = 1 ∨
      i = .readMultiple d ∧ chunk = (s.device d).multipleBlock ∧ 0 < chunk →
    n = (if (s.device d).regs.sectorCount = 0 then 256 else (s.device d).regs.sectorCount.toNat) →
    (∀ lba, (s.device d).sectorAddress (s.device d).regs = some lba → lba + n ≤ (s.device d).disk.totalSectors →
      ((s.device d).ioFaults.headD false = false →
        ∃ buffer : List Host.Cell,
          (∀ k, bufferByte d buffer k =
            if k < 512 * min chunk n then s.storeByte d (512 * lba + k) else bufferByte d (s.device d).buffer k) ∧
          CompletesDevice i s d
            ({ s.device d with
              commandRequested := false, buffer := buffer, ioFaults := (s.device d).ioFaults.tail,
              op := some (Operation.mk .read lba n chunk) }.afterTransfer .pioRead (512 * min chunk n)) [] []) ∧
      ((s.device d).ioFaults.headD false = true → exec i s = .fault .hostIoFailure)) ∧
    ((s.device d).sectorAddress (s.device d).regs = none ∨
        (∃ lba, (s.device d).sectorAddress (s.device d).regs = some lba ∧
          (s.device d).disk.totalSectors < lba + n) →
      CompletesDevice i s d (s.device d).afterAbort [] []) ∧
    ((s.device d).multipleBlock = 0 → CompletesDevice (.readMultiple d) s d (s.device d).afterAbort [] [])

/-- R243, R245, R120: a write of sectors opens a write transfer of its first chunk and moves no data yet; it aborts as
a read does. The completion is the spec's decision D22, the address and the count D28, the abort with multiple mode off
D29, the result bytes D30; that the demux output is brought up to date after an abort too is notes/assumptions/21.md. -/
def Obligations.WriteCommandsOpenFirstChunk : Prop :=
  ∀ (s : State) (d : Drive) (i : Instr) (chunk n : Nat),
    (i = .writeSectors d ∨ i = .writeSectorsNoRetry d) ∧ chunk = 1 ∨
      i = .writeMultiple d ∧ chunk = (s.device d).multipleBlock ∧ 0 < chunk →
    n = (if (s.device d).regs.sectorCount = 0 then 256 else (s.device d).regs.sectorCount.toNat) →
    (∀ lba, (s.device d).sectorAddress (s.device d).regs = some lba → lba + n ≤ (s.device d).disk.totalSectors →
      CompletesDevice i s d
        ({ s.device d with commandRequested := false, op := some (Operation.mk .write lba n chunk) }.afterTransfer
          .pioWrite (512 * min chunk n)) [] []) ∧
    ((s.device d).sectorAddress (s.device d).regs = none ∨
        (∃ lba, (s.device d).sectorAddress (s.device d).regs = some lba ∧
          (s.device d).disk.totalSectors < lba + n) →
      CompletesDevice i s d (s.device d).afterAbort [] []) ∧
    ((s.device d).multipleBlock = 0 → CompletesDevice (.writeMultiple d) s d (s.device d).afterAbort [] [])

/-- R250, R122, R257: IDENTIFY DRIVE fills the buffer with the identification structure, whose words 60 and 61 hold
the number of sectors, whose word 1 is at most 16383, whose words 3 and 6 hold the heads and the sectors per track of the
default geometry, and whose other words are the disk's parameter (R12), and opens a read transfer of 512 bytes. The
completion and the result bytes are the spec's decisions D22 and D30; the places of the fields are from general knowledge
(R122), and that words 3 and 6 are the default geometry and the others a parameter of the disk is notes/assumptions/19.md. -/
def Obligations.IdentifyReportsCapacity : Prop :=
  ∀ (s : State) (d : Drive), ∃ buffer : List Host.Cell,
    CompletesDevice (.identifyDrive d) s d
      ({ s.device d with commandRequested := false, buffer := buffer, op := none }.afterTransfer .pioRead 512) [] [] ∧
    ((s.device d).disk.totalSectors < 4294967296 →
      (bufferByte d buffer 120).toNat + (bufferByte d buffer 121).toNat * 256 +
        (bufferByte d buffer 122).toNat * 65536 + (bufferByte d buffer 123).toNat * 16777216 =
      (s.device d).disk.totalSectors) ∧
    (bufferByte d buffer 2).toNat + (bufferByte d buffer 3).toNat * 256 ≤ 16383 ∧
    ((s.device d).disk.defaultGeometry.heads < 65536 →
      (bufferByte d buffer 6).toNat + (bufferByte d buffer 7).toNat * 256 = (s.device d).disk.defaultGeometry.heads) ∧
    ((s.device d).disk.defaultGeometry.sectorsPerTrack < 65536 →
      (bufferByte d buffer 12).toNat + (bufferByte d buffer 13).toNat * 256 =
        (s.device d).disk.defaultGeometry.sectorsPerTrack) ∧
    (∀ k, k < 512 → k / 2 ∉ [1, 3, 6, 60, 61] →
      bufferByte d buffer k = Memory.read (s.device d).disk.identifyRest k) ∧
    ∀ k, 512 ≤ k → bufferByte d buffer k = bufferByte d (s.device d).buffer k

/-! ## ATA: the worker -/

/-- R45, R230, R231, R236: a worker with a stop requested stops, and no step of the machine starts a stopped worker
again, except the construction of a new device in the place of the old one: a request still pending is never served. The
destruction of a device requests the stop and goes on with the join, which is done once the worker has stopped with
nothing left to do, and until then keeps its agent waiting. A reset puts the register file at its power-up values, drops
every pending request and the transfer, lowers the interrupt and keeps the negotiated settings. Most of what a reset does
is the spec's decision D24; the join as an event that waits, and the destruction of a device already destroyed, are
notes/assumptions/20.md, the construction 31.md, and that the demux output is brought up to date after the stop too 21.md. -/
def Obligations.WorkerStopsAndResets : Prop :=
  (∀ (s : State) (d : Drive), (s.device d).stopped = false →
    ((s.device d).stopRequested = true →
      CompletesDevice (.workerStop d) s d { s.device d with stopped := true } [] []) ∧
    ((s.device d).stopRequested = false → (s.device d).resetRequested = true →
      CompletesDevice (.workerReset d) s d
        { s.device d with
          resetRequested := false, commandRequested := false, continueRequested := false,
          regs := { status := 0x50, error := 0x01, feature := 0x00, sectorCount := 0x01, sectorNumber := 0x01,
                    cylinderLow := 0x00, cylinderHigh := 0x00, driveHead := 0x00, command := 0x00 },
          xfer := .idle, cursor := 0, length := 0, op := none, intrq := false } [] [])) ∧
  (∀ (s : State) (d : Drive), (s.device d).stopped = true →
    (s.device d).workerKind = none ∧
    ∀ t, step s = .next t → (∀ u, s.nextEvent ≠ some (.constructDevice d, u)) → (t.device d).stopped = true) ∧
  (∀ (s : State) (d : Drive),
    (∃ t, s.runEvent (.teardown d) = .next t ∧ t.device d = { s.device d with stopRequested := true } ∧
      t.mux = s.mux ∧ Continues [.join d] s t ∧ Answered [] [] s t ∧ DeviceFrame d s t) ∧
    ((s.device d).stopped = true → (s.thread (.worker d)).follow = [] → s.runEvent (.join d) = .next s) ∧
    ((s.device d).stopped = false ∨ (s.thread (.worker d)).follow ≠ [] →
      ∃ t, s.runEvent (.join d) = .next t ∧ Continues [.join d] s t ∧ Answered [] [] s t ∧ QuietFrame s t))

/-- R232, R233, R116: a worker with a command pending runs the row of the opcode in the command register; unless the
host fails a store access it completes, with the request taken and BUSY off. R7, R78: in a fair run a command that was
requested is eventually taken or dropped, unless the worker stops, and R7 c, R297: a PIT with nothing to do
later asserts its line, and performs what it has to do, the deassertion included. The single step is the spec's decision D26,
that it clears BUSY its D22, fairness its D39 and the PIT's pulse its D35 (two steps by notes/assumptions/17.md); the oracle
of host failures is notes/assumptions/9.md, fair runs are 3.md, and that no lock ever blocks a step is 14.md. -/
def Obligations.WorkerRunsCommand : Prop :=
  (∀ (r : Nat → State) (d : Drive) (k : Nat), FairToDevices r → ((r k).device d).commandRequested = true →
    ∃ j, k ≤ j ∧ (((r j).device d).commandRequested = false ∨ ((r j).device d).stopped = true)) ∧
  (∀ (r : Nat → State) (l : LineRef) (k : Nat), FairRun r → (r k).wiring.pitLine = some l →
    (((r k).thread .pit).follow = [] →
      ∃ j u, k ≤ j ∧ (r j).nextEvent = some (.line l.pic l.line true, u) ∧
        (u.thread .pit).follow = [.line l.pic l.line false]) ∧
    ∀ (e : Event) (es : List Event), ((r k).thread .pit).follow = e :: es →
      ∃ j u, k ≤ j ∧ (r j).nextEvent = some (e, u) ∧ (u.thread .pit).follow = es) ∧
  ∀ (s : State) (d : Drive), (s.device d).workerKind = some .command →
    exec (.workerCommand d) s = exec (decodeOpcode d (s.device d).regs.command) s ∧
    ((s.device d).ioFaults.headD false = false →
      ∃ t, exec (.workerCommand d) s = .next t ∧ (t.device d).commandRequested = false ∧
        (t.device d).regs.status &&& 0x80 = 0 ∧ DeviceFrame d s t)

/-- R234, R237: the worker loads the next chunk of a read from the store, opens a transfer of it and raises the
interrupt; a store access that the host fails is a fault. The completion and the result bytes are the spec's decisions D22 and
D30; the oracle of host failures is notes/assumptions/9.md, the capacity of the buffer (R39) 30.md. -/
def Obligations.WorkerLoadsNextChunk : Prop :=
  ∀ (s : State) (d : Drive) (op : Operation), (s.device d).workerKind = some .continueRead →
    (s.device d).op = some op →
    op.lba + min op.chunk op.remaining ≤ (s.device d).disk.totalSectors →
    ((s.device d).ioFaults.headD false = false →
      ∃ buffer : List Host.Cell,
        (∀ k, bufferByte d buffer k =
          if k < 512 * min op.chunk op.remaining ∧ k < 131072 then s.storeByte d (512 * op.lba + k)
          else bufferByte d (s.device d).buffer k) ∧
        CompletesDevice (.workerContinueRead d) s d
          ({ s.device d with
            continueRequested := false, buffer := buffer, ioFaults := (s.device d).ioFaults.tail }.afterTransfer
              .pioRead (512 * min op.chunk op.remaining)) [] []) ∧
    ((s.device d).ioFaults.headD false = true → exec (.workerContinueRead d) s = .fault .hostIoFailure)

/-- R235, R237: the worker stores the chunk that was collected, byte for byte, at the sectors of the operation and
nowhere else; if sectors are left it opens the next write transfer and raises the interrupt, and after the last chunk
it raises none. The completion, the absent last interrupt and the result bytes are the spec's decisions D22,
D27 and D30; the oracle of host failures is notes/assumptions/9.md, and that the demux output is brought up to date after
the last chunk too is 21.md. -/
def Obligations.WorkerStoresChunk : Prop :=
  ∀ (s : State) (d : Drive) (op : Operation) (k : Nat), (s.device d).workerKind = some .continueWrite →
    (s.device d).op = some op → k = (s.device d).length / 512 → op.lba + k ≤ (s.device d).disk.totalSectors →
    ((s.device d).ioFaults.headD false = false →
      ∃ (t : State) (store : Memory), exec (.workerContinueWrite d) s = .next t ∧
        (∀ x, x < 512 * k → t.storeByte d (512 * op.lba + x) = bufferByte d (s.device d).buffer x) ∧
        StoringFrame d (512 * op.lba) (512 * k) s t ∧ Answered [] [] s t ∧
        (k < op.remaining →
          DeviceUpdated d
            ({ s.device d with
              continueRequested := false, store := store, ioFaults := (s.device d).ioFaults.tail,
              op := some { op with lba := op.lba + k, remaining := op.remaining - k } }.afterTransfer .pioWrite
                (512 * min op.chunk (op.remaining - k))) s t) ∧
        (op.remaining ≤ k →
          DeviceUpdated d
            { s.device d with
              continueRequested := false, store := store, ioFaults := (s.device d).ioFaults.tail, op := none,
              regs := { (s.device d).regs with
                status := ((s.device d).regs.status &&& 0x08) ||| 0x50, error := 0x00 } } s t)) ∧
    ((s.device d).ioFaults.headD false = true → exec (.workerContinueWrite d) s = .fault .hostIoFailure)

/-! ## Demux and XTIDE -/

/-- R271: a command-block access of the demux, other than a write at index 6, is that access of the selected device, and of
no other; it answers a next state but for a command write while BUSY. -/
def Obligations.DemuxForwardsToSelected : Prop :=
  ∀ (s : State) (i : Nat),
    (∀ j, decode (s.ctx (.ataRead s.mux.selected i)) (.ataRead s.mux.selected i) = .row j →
      exec (.muxForward i .read) s = exec j s) ∧
    (∃ t, exec (.muxForward i .read) s = .next t ∧ DeviceFrame s.mux.selected s t) ∧
    ∀ v : Half, i ≠ 6 →
      (∀ j, decode (s.ctx (.ataWrite s.mux.selected i v)) (.ataWrite s.mux.selected i v) = .row j →
        exec (.muxForward i (.write v)) s = exec j s) ∧
      (i ≠ 7 ∨ (s.device s.mux.selected).regs.status &&& 0x80 = 0 →
        ∃ t, exec (.muxForward i (.write v)) s = .next t ∧ DeviceFrame s.mux.selected s t)

/-- R272, R273: a Drive/Head write through the demux selects the device that bit 4 names, writes the byte at that
device only, unless it is BUSY, and the output shows the newly selected device. The order of selection and write is
the spec's decision D32. -/
def Obligations.DriveHeadSelects : Prop :=
  ∀ (s : State) (b : Byte) (d : Drive), d = (if b &&& 0x10 ≠ 0 then Drive.slave else Drive.master) →
    ∃ t, exec (.muxDriveHeadW b) s = .next t ∧
      t.mux = { s.mux with selected := d, out := (t.device d).visible } ∧
      t.device d = (if (s.device d).regs.status &&& 0x80 = 0
        then { s.device d with regs := { (s.device d).regs with driveHead := b } } else s.device d) ∧
      Continues (muxEvents s s.mux.out t.mux.out) s t ∧
      Answered [] (if (s.device d).regs.status &&& 0x80 = 0 then [] else [.ataBusy]) s t ∧ DeviceFrame d s t

/-- R274: Device Control is broadcast: the shadow bit of the selected device follows the byte, each device receives
its own shadow bit with the shared reset bit, and the reset bit asks both for a reset. Which shadow bit follows and
the reset request are the spec's decisions D32, D24 and D25. -/
def Obligations.DeviceControlIsBroadcast : Prop :=
  ∀ (s : State) (b : Byte), ∃ t, exec (.muxDeviceControlW b) s = .next t ∧
    t.mux.selected = s.mux.selected ∧
    t.mux.nIENMaster = (if s.mux.selected = .master then b &&& 0x02 != 0 else s.mux.nIENMaster) ∧
    t.mux.nIENSlave = (if s.mux.selected = .slave then b &&& 0x02 != 0 else s.mux.nIENSlave) ∧
    t.mux.out = (t.device s.mux.selected).visible ∧
    (∀ d, t.device d =
      { s.device d with
        nIEN := (match d with | .master => t.mux.nIENMaster | .slave => t.mux.nIENSlave),
        resetRequested := (s.device d).resetRequested || (b &&& 0x04 != 0),
        regs := { (s.device d).regs with
          status := if b &&& 0x04 = 0 then (s.device d).regs.status else (s.device d).regs.status ||| 0x80 } }) ∧
    Continues (muxEvents s s.mux.out t.mux.out) s t ∧ Answered [] [] s t ∧ SamePics s t ∧ SameBus s t ∧
    t.latch = s.latch ∧ SameAgents s t ∧ SameMemory s t

/-- R275, R276, R273: a control-block read answers the selected device's status with no side effect; a notification
makes the demux output the selected device's visible level, and tells the host line of a change only. The
control-block read is the spec's decision D21; that only a change is signalled is derived (R273). -/
def Obligations.DemuxStatusAndNotification : Prop :=
  ∀ (s : State),
    CompletesQuietly .muxAltStatusR s [] [(s.device s.mux.selected).regs.status] [] ∧
    ∀ d, ∃ t, exec (.muxNotify d) s = .next t ∧
      t.mux = { s.mux with out := (s.device s.mux.selected).visible } ∧
      Continues (muxEvents s s.mux.out t.mux.out) s t ∧ Answered [] [] s t ∧ SamePics s t ∧ SameBus s t ∧
      (∀ e, t.device e = s.device e) ∧ t.latch = s.latch ∧ SameAgents s t ∧ SameMemory s t

/-- R281: a low-byte data read is the demux's data read: its word goes to the latch and its low byte is answered; a
one-byte answer, the status while BUSY, is extended with zeros. What is latched is the spec's decision D33. -/
def Obligations.XtideLowByteRead : Prop :=
  ∀ (s : State) (o : Nat), s.xtAt o = .commandBlock 0 →
    ∃ (t u : State) (lo hi : Byte) (diagnostics : List Diagnostic), exec (.xtDataLowR o) s = .next t ∧
      exec (.muxForward 0 .read) s = .next u ∧
      (Answered [lo, hi] diagnostics s u ∨ hi = 0 ∧ Answered [lo] diagnostics s u) ∧
      t.latch = hi ++ lo ∧ Answered [lo] diagnostics s t ∧
      (∀ d, t.device d = u.device d) ∧ t.mux = u.mux ∧
      (t.thread s.active).follow = (u.thread s.active).follow ∧ SamePics s t ∧ SameBus s t ∧ SameAgents s t ∧
      SameMemory s t

/-- R282, R283, R284: the high-byte port reads and writes the high byte of the latch and touches no device; a low-byte data
write is the demux's data write of that high byte with the byte written. What is latched is the spec's decision D33.
-/
def Obligations.XtideLatch : Prop :=
  ∀ (s : State) (o : Nat) (b : Byte),
    (s.xtAt o = .dataHigh →
      CompletesQuietly (.xtDataHighR o) s [] [(s.latch >>> 8).truncate 8] [] ∧
      ∃ t, exec (.xtDataHighW o b) s = .next t ∧ t.latch = b ++ s.latch.truncate 8 ∧
        SamePics s t ∧ SameBus s t ∧ (∀ d, t.device d = s.device d) ∧ t.mux = s.mux ∧ SameAgents s t ∧ SameMemory s t ∧
        Continues [] s t ∧ Answered [] [] s t) ∧
    (s.xtAt o = .commandBlock 0 →
      ∃ t, exec (.xtDataLowW o b) s = .next t ∧
        exec (.muxForward 0 (.write ((s.latch >>> 8).truncate 8 ++ b))) s = .next t ∧ t.latch = s.latch)

/-- R285, R286, R287: the other offsets of the window are the demux's register access, its control block, and, where
unmapped, the safe default with a diagnostic. -/
def Obligations.XtideRegisters : Prop :=
  ∀ (s : State) (o : Nat) (b : Byte),
    (∀ i : Fin 8, i ≠ 0 → s.xtAt o = .commandBlock i →
      exec (.xtReg o .read) s = exec (.muxForward i.val .read) s ∧
      (∃ t, exec (.xtReg o .read) s = .next t) ∧
      exec (.xtReg o (.write b)) s =
        exec (if i = 6 then .muxDriveHeadW b else .muxForward i.val (.write (b.zeroExtend 16))) s ∧
      (i ≠ 7 ∨ (s.device s.mux.selected).regs.status &&& 0x80 = 0 → ∃ t, exec (.xtReg o (.write b)) s = .next t)) ∧
    (s.xtAt o = .controlBlock →
      exec (.xtControl o .read) s = exec .muxAltStatusR s ∧ (∃ t, exec (.xtControl o .read) s = .next t) ∧
      exec (.xtControl o (.write b)) s = exec (.muxDeviceControlW b) s ∧
      ∃ t, exec (.xtControl o (.write b)) s = .next t) ∧
    (s.xtAt o = .unmapped →
      CompletesQuietly (.xtUnmapped o (.write b)) s [] [] [.ataBadRegister] ∧
      CompletesQuietly (.xtUnmapped o .read) s [] [0xFF] [.ataBadRegister])

/-! ## Invariants and reset -/

/-- R32, R180, R170: in every step each PIC's output stays the level its unserviced lines require, and no special-mask
bit gets into OCW3. R10: in every step the chaining of the PICs stays a finite forest. The iff at the end of every
operation, the fault of the special-mask bit and the forest are the spec's decisions D7, D13 and D40. -/
def Obligations.StepKeepsPicOutput : Prop :=
  (∀ (s t : State), s.PicInv → step s = .next t → t.PicInv) ∧
  ∀ (s t : State), s.TopologyInv → step s = .next t → t.TopologyInv

/-- R35, R145: in every step the live ranges of each dispatcher stay non-empty, ordered and free of overlap. R80: after
every step the mappings agree with the table: with an engine attached the registered ranges are the mapped ones and the
engine holds exactly the tiles of the host-backed ones, without one nothing is mapped. The formula for overlap is derived
by the spec (R35), the tiles are its decision D38. -/
def Obligations.StepKeepsRangesApart : Prop :=
  (∀ (s t : State), s.DispatcherInv → step s = .next t → t.DispatcherInv) ∧
  ∀ (s t : State), s.DispatcherInv → s.MappingInv → step s = .next t → t.MappingInv

/-- R39, R43, R44, R273: in every step DRQ stays set exactly while a transfer is open, the cursor stays within the
length and the length within the capacity of the buffer, which holds no byte beyond it, an operation in progress keeps
sectors to move, and the demux output stays the selected device's visible level. The lengths of transfers are derived by
the spec (R224); the capacity is notes/assumptions/30.md. -/
def Obligations.StepKeepsChannel : Prop := ∀ (s t : State), s.ChannelInv → step s = .next t → t.ChannelInv

/-- In every step the host blocks, the backing stores and the transfer buffers keep their canonical form. The form is the
model's own (notes/assumptions/7.md). -/
def Obligations.StepKeepsMemoryForm : Prop := ∀ (s t : State), s.MemoryInv → step s = .next t → t.MemoryInv

/-- R54, R55, R56, R36, R37, R46: the state after construction meets every invariant, and holds the power-up values; a PIC
or an ATA device that is constructed later holds them too (R7 d). The values, written out in `picPoweredUp`,
`devicePoweredUp` and `Dispatcher.PoweredUp`, are the spec's decisions D5, D6, D24 and D32; the unfilled buffer is
notes/assumptions/8.md, that a worker has stopped 20.md, the number of PICs and devices 5.md, what a construction needs and
keeps 31.md. -/
def Obligations.ResetMeetsInvariants : Prop :=
  State.reset.PicInv ∧ State.reset.DispatcherInv ∧ State.reset.ChannelInv ∧ State.reset.MemoryInv ∧
  State.reset.MappingInv ∧ State.reset.TopologyInv ∧
  (∀ (s : State) (d : Drive), (s.device d).stopped = true → (s.thread (.worker d)).follow = [] →
    ∃ t, s.runEvent (.constructDevice d) = .next t ∧
      DeviceUpdated d
        (devicePoweredUp (s.device d).disk (s.device d).store (s.device d).ioFaults) s t ∧
      Answered [] [] s t ∧ DeviceFrame d s t) ∧
  (∀ s : State, ∃ t, s.runEvent (.constructPic none) = .next t ∧
    t.pics = s.pics ++ [picPoweredUp (Vector.replicate 8 none)] ∧
    (t.thread s.active).reply.handle = some s.pics.length ∧ Continues [] s t ∧ t.sink = s.sink ∧ PicFrame s t) ∧
  (∀ q ∈ State.reset.pics, q = picPoweredUp q.secondary) ∧
  (∀ d, State.reset.device d =
    devicePoweredUp (State.reset.device d).disk (State.reset.device d).store (State.reset.device d).ioFaults) ∧
  State.reset.io.PoweredUp ∧ State.reset.mem.PoweredUp ∧ State.reset.registrations = [] ∧
  State.reset.mux = { selected := .master, nIENMaster := false, nIENSlave := false, out := false }
end

