-- ==== Sys2Proof/Laws/Flags.lean ====
section
/-! SUPPORT. The bits of the PIC's line registers, its selection, and the ATA status merge. -/
namespace Sys2Proof.Machine

/-! ## Line bits -/

theorem lineBit_getLsbD (n k : Fin 8) : (lineBit n).getLsbD k.val = decide (k = n) := by
  revert n k; decide

/-- Setting one line's bit leaves the others. -/
@[simp] theorem setLineBit_getLsbD (r : Byte) (n k : Fin 8) (a : Bool) :
    (setLineBit r n a).getLsbD k.val = if k = n then a else r.getLsbD k.val := by
  have hk : decide (k.val < 8) = true := decide_eq_true k.isLt
  cases a <;> by_cases h : k = n <;>
    simp only [setLineBit, BitVec.getLsbD_or, BitVec.getLsbD_and, BitVec.getLsbD_not, lineBit_getLsbD, h, hk, if_true,
      if_false, decide_true, decide_false, Bool.not_true, Bool.not_false, Bool.and_true, Bool.and_false, Bool.or_true,
      Bool.or_false, Bool.false_eq_true, n.isLt]

theorem mem_allLines (n : Fin 8) : n ∈ allLines := by revert n; decide

/-- Two bytes with the same eight bits are the same. -/
theorem byte_ext {a b : Byte} (h : ∀ k : Fin 8, a.getLsbD k.val = b.getLsbD k.val) : a = b := by
  apply BitVec.eq_of_getLsbD_eq
  intro i hi
  exact h ⟨i, hi⟩

theorem byte_eq_zero_iff (m : Byte) : m = 0 ↔ ∀ k : Fin 8, m.getLsbD k.val = false := by
  constructor
  · rintro rfl k; simp
  · intro h; apply byte_ext; intro k; rw [h k]; simp

/-- `lowest` is the least line whose bit is set. -/
theorem lowest_eq_some_iff (m : Byte) (n : Fin 8) :
    lowest m = some n ↔ m.getLsbD n.val = true ∧ ∀ k, k < n → m.getLsbD k.val = false := by
  have key : ∀ (f : Fin 8 → Bool), allLines.find? f = some n ↔ f n = true ∧ ∀ k, k < n → f k = false := by
    intro f
    have hall : ∀ (b0 b1 b2 b3 b4 b5 b6 b7 : Bool),
        allLines.find? (fun k => #v[b0, b1, b2, b3, b4, b5, b6, b7].get k) = some n ↔
          #v[b0, b1, b2, b3, b4, b5, b6, b7].get n = true ∧
            ∀ k, k < n → #v[b0, b1, b2, b3, b4, b5, b6, b7].get k = false := by
      revert n; decide
    have hf : f = fun k => #v[f 0, f 1, f 2, f 3, f 4, f 5, f 6, f 7].get k := by
      funext k; revert k; simp [Fin.forall_fin_succ, Vector.get]
    rw [hf]; exact hall _ _ _ _ _ _ _ _
  exact key (fun k => m.getLsbD k.val)

theorem lowest_eq_none_iff (m : Byte) : lowest m = none ↔ m = 0 := by
  simp only [lowest, List.find?_eq_none, byte_eq_zero_iff]
  exact ⟨fun h k => Bool.eq_false_iff.2 (h k (mem_allLines k)), fun h k _ => by rw [h k]; exact Bool.false_ne_true⟩

/-! ## Unserviced lines (R32, R33) -/

theorem Pic.unserviced_getLsbD (q : Pic) (k : Fin 8) :
    q.unserviced.getLsbD k.val = (q.irr.getLsbD k.val && !q.ocw1.getLsbD k.val && !q.isr.getLsbD k.val) := by
  have hk : decide (k.val < 8) = true := decide_eq_true k.isLt
  simp only [Pic.unserviced, BitVec.getLsbD_and, BitVec.getLsbD_not, hk, Bool.true_and]

theorem Pic.select_eq_some_iff (q : Pic) (n : Fin 8) : q.select = some n ↔ q.Selects n := by
  have hb : ∀ k : Fin 8, q.unserviced.getLsbD k.val = true ↔
      (q.irr.getLsbD k.val = true ∧ q.ocw1.getLsbD k.val = false ∧ q.isr.getLsbD k.val = false) := by
    intro k
    rw [Pic.unserviced_getLsbD]
    cases q.irr.getLsbD k.val <;> cases q.ocw1.getLsbD k.val <;> cases q.isr.getLsbD k.val <;> decide
  rw [Pic.select, lowest_eq_some_iff, hb]
  constructor
  · rintro ⟨h, hk⟩
    exact ⟨h.1, h.2.1, h.2.2, fun k hkn hc => by rw [← hb, hk k hkn] at hc; exact Bool.false_ne_true hc⟩
  · rintro ⟨h1, h2, h3, h4⟩
    exact ⟨⟨h1, h2, h3⟩, fun k hkn => Bool.eq_false_iff.2 (fun hc => h4 k hkn ((hb k).1 hc))⟩

theorem Pic.select_eq_none_iff (q : Pic) : q.select = none ↔ q.irr &&& ~~~q.ocw1 &&& ~~~q.isr = 0 :=
  lowest_eq_none_iff _

theorem Pic.level_iff (q : Pic) (n : Fin 8) : q.level n = true ↔ q.LevelTriggered n := by
  simp [Pic.level, Pic.LevelTriggered, icw1Ltim]

theorem Pic.settled_out (q : Pic) : q.settled.out = q.outputLevel := rfl

/-! ## Bytes of a word -/

theorem wordOf_eq_append (lo hi : Byte) : wordOf lo hi = hi ++ lo := by
  apply BitVec.eq_of_toNat_eq
  have h1 := lo.isLt
  have h2 := hi.isLt
  rw [BitVec.toNat_append]
  simp only [wordOf, BitVec.toNat_or, BitVec.toNat_shiftLeft, BitVec.zeroExtend_eq_setWidth, BitVec.toNat_setWidth,
    Nat.shiftLeft_eq]
  rw [Nat.mod_eq_of_lt (by omega : hi.toNat < 2 ^ 16), Nat.mod_eq_of_lt (by omega : lo.toNat < 2 ^ 16),
    Nat.mod_eq_of_lt (by omega : hi.toNat * 2 ^ 8 < 2 ^ 16)]

theorem wordOf_toNat (lo hi : Byte) : (wordOf lo hi).toNat = hi.toNat * 256 + lo.toNat := by
  rw [wordOf_eq_append, BitVec.toNat_append, Nat.shiftLeft_eq, ← Nat.mul_comm (2 ^ 8),
    ← Nat.two_pow_add_eq_or_of_lt lo.isLt]

@[simp] theorem lowByte_wordOf (lo hi : Byte) : lowByte (wordOf lo hi) = lo := by
  apply BitVec.eq_of_toNat_eq
  have := lo.isLt
  simp only [lowByte, BitVec.truncate_eq_setWidth, BitVec.toNat_setWidth, wordOf_toNat]
  omega

@[simp] theorem highByte_wordOf (lo hi : Byte) : highByte (wordOf lo hi) = hi := by
  apply BitVec.eq_of_toNat_eq
  have := lo.isLt
  have := hi.isLt
  simp only [highByte, BitVec.truncate_eq_setWidth, BitVec.toNat_setWidth, BitVec.toNat_ushiftRight, wordOf_toNat,
    Nat.shiftRight_eq_div_pow]
  omega

@[simp] theorem lowByte_byteOnBus (b : Byte) : lowByte (byteOnBus b) = b := by
  simp [lowByte, byteOnBus]

theorem byteOnBus_lowByte (v : Half) (h : v.toNat < 256) : byteOnBus (lowByte v) = v := by
  apply BitVec.eq_of_toNat_eq
  simp [byteOnBus, lowByte]
  omega

end Sys2Proof.Machine
end

