-- ==== Sys2Proof/Laws/State.lean ====
section
/-! SUPPORT. What each named update of the state does to each field: one lemma per field per update. -/
namespace Sys2Proof.Machine

/-! ## setThread -/

@[simp] theorem State.setThread_pics (s : State) (a : Agent) (t : Thread) : (s.setThread a t).pics = s.pics := rfl
@[simp] theorem State.setThread_io (s : State) (a : Agent) (t : Thread) : (s.setThread a t).io = s.io := rfl
@[simp] theorem State.setThread_mem (s : State) (a : Agent) (t : Thread) : (s.setThread a t).mem = s.mem := rfl
@[simp] theorem State.setThread_registrations (s : State) (a : Agent) (t : Thread) : (s.setThread a t).registrations = s.registrations := rfl
@[simp] theorem State.setThread_hostBlocks (s : State) (a : Agent) (t : Thread) : (s.setThread a t).hostBlocks = s.hostBlocks := rfl
@[simp] theorem State.setThread_master (s : State) (a : Agent) (t : Thread) : (s.setThread a t).master = s.master := rfl
@[simp] theorem State.setThread_slave (s : State) (a : Agent) (t : Thread) : (s.setThread a t).slave = s.slave := rfl
@[simp] theorem State.setThread_mux (s : State) (a : Agent) (t : Thread) : (s.setThread a t).mux = s.mux := rfl
@[simp] theorem State.setThread_latch (s : State) (a : Agent) (t : Thread) : (s.setThread a t).latch = s.latch := rfl
@[simp] theorem State.setThread_xtMap (s : State) (a : Agent) (t : Thread) : (s.setThread a t).xtMap = s.xtMap := rfl
@[simp] theorem State.setThread_wiring (s : State) (a : Agent) (t : Thread) : (s.setThread a t).wiring = s.wiring := rfl
@[simp] theorem State.setThread_sink (s : State) (a : Agent) (t : Thread) : (s.setThread a t).sink = s.sink := rfl
@[simp] theorem State.setThread_threads (s : State) (a : Agent) (t : Thread) : (s.setThread a t).threads = putThread s.threads a t := rfl
@[simp] theorem State.setThread_active (s : State) (a : Agent) (t : Thread) : (s.setThread a t).active = s.active := rfl
@[simp] theorem State.setThread_schedule (s : State) (a : Agent) (t : Thread) : (s.setThread a t).schedule = s.schedule := rfl
@[simp] theorem State.setThread_clock (s : State) (a : Agent) (t : Thread) : (s.setThread a t).clock = s.clock := rfl

/-! ## pushFollow -/

@[simp] theorem State.pushFollow_pics (s : State) (es : List Event) : (s.pushFollow es).pics = s.pics := rfl
@[simp] theorem State.pushFollow_io (s : State) (es : List Event) : (s.pushFollow es).io = s.io := rfl
@[simp] theorem State.pushFollow_mem (s : State) (es : List Event) : (s.pushFollow es).mem = s.mem := rfl
@[simp] theorem State.pushFollow_registrations (s : State) (es : List Event) : (s.pushFollow es).registrations = s.registrations := rfl
@[simp] theorem State.pushFollow_hostBlocks (s : State) (es : List Event) : (s.pushFollow es).hostBlocks = s.hostBlocks := rfl
@[simp] theorem State.pushFollow_master (s : State) (es : List Event) : (s.pushFollow es).master = s.master := rfl
@[simp] theorem State.pushFollow_slave (s : State) (es : List Event) : (s.pushFollow es).slave = s.slave := rfl
@[simp] theorem State.pushFollow_mux (s : State) (es : List Event) : (s.pushFollow es).mux = s.mux := rfl
@[simp] theorem State.pushFollow_latch (s : State) (es : List Event) : (s.pushFollow es).latch = s.latch := rfl
@[simp] theorem State.pushFollow_xtMap (s : State) (es : List Event) : (s.pushFollow es).xtMap = s.xtMap := rfl
@[simp] theorem State.pushFollow_wiring (s : State) (es : List Event) : (s.pushFollow es).wiring = s.wiring := rfl
@[simp] theorem State.pushFollow_sink (s : State) (es : List Event) : (s.pushFollow es).sink = s.sink := rfl
@[simp] theorem State.pushFollow_active (s : State) (es : List Event) : (s.pushFollow es).active = s.active := rfl
@[simp] theorem State.pushFollow_schedule (s : State) (es : List Event) : (s.pushFollow es).schedule = s.schedule := rfl
@[simp] theorem State.pushFollow_clock (s : State) (es : List Event) : (s.pushFollow es).clock = s.clock := rfl

/-! ## setFollow -/

@[simp] theorem State.setFollow_pics (s : State) (es : List Event) : (s.setFollow es).pics = s.pics := rfl
@[simp] theorem State.setFollow_io (s : State) (es : List Event) : (s.setFollow es).io = s.io := rfl
@[simp] theorem State.setFollow_mem (s : State) (es : List Event) : (s.setFollow es).mem = s.mem := rfl
@[simp] theorem State.setFollow_registrations (s : State) (es : List Event) : (s.setFollow es).registrations = s.registrations := rfl
@[simp] theorem State.setFollow_hostBlocks (s : State) (es : List Event) : (s.setFollow es).hostBlocks = s.hostBlocks := rfl
@[simp] theorem State.setFollow_master (s : State) (es : List Event) : (s.setFollow es).master = s.master := rfl
@[simp] theorem State.setFollow_slave (s : State) (es : List Event) : (s.setFollow es).slave = s.slave := rfl
@[simp] theorem State.setFollow_mux (s : State) (es : List Event) : (s.setFollow es).mux = s.mux := rfl
@[simp] theorem State.setFollow_latch (s : State) (es : List Event) : (s.setFollow es).latch = s.latch := rfl
@[simp] theorem State.setFollow_xtMap (s : State) (es : List Event) : (s.setFollow es).xtMap = s.xtMap := rfl
@[simp] theorem State.setFollow_wiring (s : State) (es : List Event) : (s.setFollow es).wiring = s.wiring := rfl
@[simp] theorem State.setFollow_sink (s : State) (es : List Event) : (s.setFollow es).sink = s.sink := rfl
@[simp] theorem State.setFollow_active (s : State) (es : List Event) : (s.setFollow es).active = s.active := rfl
@[simp] theorem State.setFollow_schedule (s : State) (es : List Event) : (s.setFollow es).schedule = s.schedule := rfl
@[simp] theorem State.setFollow_clock (s : State) (es : List Event) : (s.setFollow es).clock = s.clock := rfl

/-! ## answer -/

@[simp] theorem State.answer_pics (s : State) (bs : List Byte) (ds : List Diagnostic) : (s.answer bs ds).pics = s.pics := rfl
@[simp] theorem State.answer_io (s : State) (bs : List Byte) (ds : List Diagnostic) : (s.answer bs ds).io = s.io := rfl
@[simp] theorem State.answer_mem (s : State) (bs : List Byte) (ds : List Diagnostic) : (s.answer bs ds).mem = s.mem := rfl
@[simp] theorem State.answer_registrations (s : State) (bs : List Byte) (ds : List Diagnostic) : (s.answer bs ds).registrations = s.registrations := rfl
@[simp] theorem State.answer_hostBlocks (s : State) (bs : List Byte) (ds : List Diagnostic) : (s.answer bs ds).hostBlocks = s.hostBlocks := rfl
@[simp] theorem State.answer_master (s : State) (bs : List Byte) (ds : List Diagnostic) : (s.answer bs ds).master = s.master := rfl
@[simp] theorem State.answer_slave (s : State) (bs : List Byte) (ds : List Diagnostic) : (s.answer bs ds).slave = s.slave := rfl
@[simp] theorem State.answer_mux (s : State) (bs : List Byte) (ds : List Diagnostic) : (s.answer bs ds).mux = s.mux := rfl
@[simp] theorem State.answer_latch (s : State) (bs : List Byte) (ds : List Diagnostic) : (s.answer bs ds).latch = s.latch := rfl
@[simp] theorem State.answer_xtMap (s : State) (bs : List Byte) (ds : List Diagnostic) : (s.answer bs ds).xtMap = s.xtMap := rfl
@[simp] theorem State.answer_wiring (s : State) (bs : List Byte) (ds : List Diagnostic) : (s.answer bs ds).wiring = s.wiring := rfl
@[simp] theorem State.answer_sink (s : State) (bs : List Byte) (ds : List Diagnostic) : (s.answer bs ds).sink = s.sink := rfl
@[simp] theorem State.answer_active (s : State) (bs : List Byte) (ds : List Diagnostic) : (s.answer bs ds).active = s.active := rfl
@[simp] theorem State.answer_schedule (s : State) (bs : List Byte) (ds : List Diagnostic) : (s.answer bs ds).schedule = s.schedule := rfl
@[simp] theorem State.answer_clock (s : State) (bs : List Byte) (ds : List Diagnostic) : (s.answer bs ds).clock = s.clock := rfl

/-! ## answerHandle -/

@[simp] theorem State.answerHandle_pics (s : State) (k : Nat) : (s.answerHandle k).pics = s.pics := rfl
@[simp] theorem State.answerHandle_io (s : State) (k : Nat) : (s.answerHandle k).io = s.io := rfl
@[simp] theorem State.answerHandle_mem (s : State) (k : Nat) : (s.answerHandle k).mem = s.mem := rfl
@[simp] theorem State.answerHandle_registrations (s : State) (k : Nat) : (s.answerHandle k).registrations = s.registrations := rfl
@[simp] theorem State.answerHandle_hostBlocks (s : State) (k : Nat) : (s.answerHandle k).hostBlocks = s.hostBlocks := rfl
@[simp] theorem State.answerHandle_master (s : State) (k : Nat) : (s.answerHandle k).master = s.master := rfl
@[simp] theorem State.answerHandle_slave (s : State) (k : Nat) : (s.answerHandle k).slave = s.slave := rfl
@[simp] theorem State.answerHandle_mux (s : State) (k : Nat) : (s.answerHandle k).mux = s.mux := rfl
@[simp] theorem State.answerHandle_latch (s : State) (k : Nat) : (s.answerHandle k).latch = s.latch := rfl
@[simp] theorem State.answerHandle_xtMap (s : State) (k : Nat) : (s.answerHandle k).xtMap = s.xtMap := rfl
@[simp] theorem State.answerHandle_wiring (s : State) (k : Nat) : (s.answerHandle k).wiring = s.wiring := rfl
@[simp] theorem State.answerHandle_sink (s : State) (k : Nat) : (s.answerHandle k).sink = s.sink := rfl
@[simp] theorem State.answerHandle_active (s : State) (k : Nat) : (s.answerHandle k).active = s.active := rfl
@[simp] theorem State.answerHandle_schedule (s : State) (k : Nat) : (s.answerHandle k).schedule = s.schedule := rfl
@[simp] theorem State.answerHandle_clock (s : State) (k : Nat) : (s.answerHandle k).clock = s.clock := rfl

/-! ## answerRoute -/

@[simp] theorem State.answerRoute_pics (s : State) (r : Route) : (s.answerRoute r).pics = s.pics := rfl
@[simp] theorem State.answerRoute_io (s : State) (r : Route) : (s.answerRoute r).io = s.io := rfl
@[simp] theorem State.answerRoute_mem (s : State) (r : Route) : (s.answerRoute r).mem = s.mem := rfl
@[simp] theorem State.answerRoute_registrations (s : State) (r : Route) : (s.answerRoute r).registrations = s.registrations := rfl
@[simp] theorem State.answerRoute_hostBlocks (s : State) (r : Route) : (s.answerRoute r).hostBlocks = s.hostBlocks := rfl
@[simp] theorem State.answerRoute_master (s : State) (r : Route) : (s.answerRoute r).master = s.master := rfl
@[simp] theorem State.answerRoute_slave (s : State) (r : Route) : (s.answerRoute r).slave = s.slave := rfl
@[simp] theorem State.answerRoute_mux (s : State) (r : Route) : (s.answerRoute r).mux = s.mux := rfl
@[simp] theorem State.answerRoute_latch (s : State) (r : Route) : (s.answerRoute r).latch = s.latch := rfl
@[simp] theorem State.answerRoute_xtMap (s : State) (r : Route) : (s.answerRoute r).xtMap = s.xtMap := rfl
@[simp] theorem State.answerRoute_wiring (s : State) (r : Route) : (s.answerRoute r).wiring = s.wiring := rfl
@[simp] theorem State.answerRoute_sink (s : State) (r : Route) : (s.answerRoute r).sink = s.sink := rfl
@[simp] theorem State.answerRoute_active (s : State) (r : Route) : (s.answerRoute r).active = s.active := rfl
@[simp] theorem State.answerRoute_schedule (s : State) (r : Route) : (s.answerRoute r).schedule = s.schedule := rfl
@[simp] theorem State.answerRoute_clock (s : State) (r : Route) : (s.answerRoute r).clock = s.clock := rfl

/-! ## setPic -/

@[simp] theorem State.setPic_pics (s : State) (p : Nat) (q : Pic) : (s.setPic p q).pics = s.pics.set p q := rfl
@[simp] theorem State.setPic_io (s : State) (p : Nat) (q : Pic) : (s.setPic p q).io = s.io := rfl
@[simp] theorem State.setPic_mem (s : State) (p : Nat) (q : Pic) : (s.setPic p q).mem = s.mem := rfl
@[simp] theorem State.setPic_registrations (s : State) (p : Nat) (q : Pic) : (s.setPic p q).registrations = s.registrations := rfl
@[simp] theorem State.setPic_hostBlocks (s : State) (p : Nat) (q : Pic) : (s.setPic p q).hostBlocks = s.hostBlocks := rfl
@[simp] theorem State.setPic_master (s : State) (p : Nat) (q : Pic) : (s.setPic p q).master = s.master := rfl
@[simp] theorem State.setPic_slave (s : State) (p : Nat) (q : Pic) : (s.setPic p q).slave = s.slave := rfl
@[simp] theorem State.setPic_mux (s : State) (p : Nat) (q : Pic) : (s.setPic p q).mux = s.mux := rfl
@[simp] theorem State.setPic_latch (s : State) (p : Nat) (q : Pic) : (s.setPic p q).latch = s.latch := rfl
@[simp] theorem State.setPic_xtMap (s : State) (p : Nat) (q : Pic) : (s.setPic p q).xtMap = s.xtMap := rfl
@[simp] theorem State.setPic_wiring (s : State) (p : Nat) (q : Pic) : (s.setPic p q).wiring = s.wiring := rfl
@[simp] theorem State.setPic_sink (s : State) (p : Nat) (q : Pic) : (s.setPic p q).sink = s.sink := rfl
@[simp] theorem State.setPic_threads (s : State) (p : Nat) (q : Pic) : (s.setPic p q).threads = s.threads := rfl
@[simp] theorem State.setPic_active (s : State) (p : Nat) (q : Pic) : (s.setPic p q).active = s.active := rfl
@[simp] theorem State.setPic_schedule (s : State) (p : Nat) (q : Pic) : (s.setPic p q).schedule = s.schedule := rfl
@[simp] theorem State.setPic_clock (s : State) (p : Nat) (q : Pic) : (s.setPic p q).clock = s.clock := rfl

/-! ## setPics -/

@[simp] theorem State.setPics_pics (s : State) (qs : List Pic) : (s.setPics qs).pics = qs := rfl
@[simp] theorem State.setPics_io (s : State) (qs : List Pic) : (s.setPics qs).io = s.io := rfl
@[simp] theorem State.setPics_mem (s : State) (qs : List Pic) : (s.setPics qs).mem = s.mem := rfl
@[simp] theorem State.setPics_registrations (s : State) (qs : List Pic) : (s.setPics qs).registrations = s.registrations := rfl
@[simp] theorem State.setPics_hostBlocks (s : State) (qs : List Pic) : (s.setPics qs).hostBlocks = s.hostBlocks := rfl
@[simp] theorem State.setPics_master (s : State) (qs : List Pic) : (s.setPics qs).master = s.master := rfl
@[simp] theorem State.setPics_slave (s : State) (qs : List Pic) : (s.setPics qs).slave = s.slave := rfl
@[simp] theorem State.setPics_mux (s : State) (qs : List Pic) : (s.setPics qs).mux = s.mux := rfl
@[simp] theorem State.setPics_latch (s : State) (qs : List Pic) : (s.setPics qs).latch = s.latch := rfl
@[simp] theorem State.setPics_xtMap (s : State) (qs : List Pic) : (s.setPics qs).xtMap = s.xtMap := rfl
@[simp] theorem State.setPics_wiring (s : State) (qs : List Pic) : (s.setPics qs).wiring = s.wiring := rfl
@[simp] theorem State.setPics_sink (s : State) (qs : List Pic) : (s.setPics qs).sink = s.sink := rfl
@[simp] theorem State.setPics_threads (s : State) (qs : List Pic) : (s.setPics qs).threads = s.threads := rfl
@[simp] theorem State.setPics_active (s : State) (qs : List Pic) : (s.setPics qs).active = s.active := rfl
@[simp] theorem State.setPics_schedule (s : State) (qs : List Pic) : (s.setPics qs).schedule = s.schedule := rfl
@[simp] theorem State.setPics_clock (s : State) (qs : List Pic) : (s.setPics qs).clock = s.clock := rfl
@[simp] theorem State.setPics_device (s : State) (qs : List Pic) (e : Drive) : (s.setPics qs).device e = s.device e := by
  cases e <;> rfl
@[simp] theorem State.setPics_dispatcher (s : State) (qs : List Pic) (sq : Space) :
    (s.setPics qs).dispatcher sq = s.dispatcher sq := by cases sq <;> rfl
@[simp] theorem State.setPics_thread (s : State) (qs : List Pic) (c : Agent) : (s.setPics qs).thread c = s.thread c := rfl

/-! ## setRegistrations -/

@[simp] theorem State.setRegistrations_pics (s : State) (gs : List Registration) : (s.setRegistrations gs).pics = s.pics := rfl
@[simp] theorem State.setRegistrations_io (s : State) (gs : List Registration) : (s.setRegistrations gs).io = s.io := rfl
@[simp] theorem State.setRegistrations_mem (s : State) (gs : List Registration) : (s.setRegistrations gs).mem = s.mem := rfl
@[simp] theorem State.setRegistrations_registrations (s : State) (gs : List Registration) : (s.setRegistrations gs).registrations = gs := rfl
@[simp] theorem State.setRegistrations_hostBlocks (s : State) (gs : List Registration) : (s.setRegistrations gs).hostBlocks = s.hostBlocks := rfl
@[simp] theorem State.setRegistrations_master (s : State) (gs : List Registration) : (s.setRegistrations gs).master = s.master := rfl
@[simp] theorem State.setRegistrations_slave (s : State) (gs : List Registration) : (s.setRegistrations gs).slave = s.slave := rfl
@[simp] theorem State.setRegistrations_mux (s : State) (gs : List Registration) : (s.setRegistrations gs).mux = s.mux := rfl
@[simp] theorem State.setRegistrations_latch (s : State) (gs : List Registration) : (s.setRegistrations gs).latch = s.latch := rfl
@[simp] theorem State.setRegistrations_xtMap (s : State) (gs : List Registration) : (s.setRegistrations gs).xtMap = s.xtMap := rfl
@[simp] theorem State.setRegistrations_wiring (s : State) (gs : List Registration) : (s.setRegistrations gs).wiring = s.wiring := rfl
@[simp] theorem State.setRegistrations_sink (s : State) (gs : List Registration) : (s.setRegistrations gs).sink = s.sink := rfl
@[simp] theorem State.setRegistrations_threads (s : State) (gs : List Registration) : (s.setRegistrations gs).threads = s.threads := rfl
@[simp] theorem State.setRegistrations_active (s : State) (gs : List Registration) : (s.setRegistrations gs).active = s.active := rfl
@[simp] theorem State.setRegistrations_schedule (s : State) (gs : List Registration) : (s.setRegistrations gs).schedule = s.schedule := rfl
@[simp] theorem State.setRegistrations_clock (s : State) (gs : List Registration) : (s.setRegistrations gs).clock = s.clock := rfl

/-! ## setHostBlocks -/

@[simp] theorem State.setHostBlocks_pics (s : State) (bs : List HostBlock) : (s.setHostBlocks bs).pics = s.pics := rfl
@[simp] theorem State.setHostBlocks_io (s : State) (bs : List HostBlock) : (s.setHostBlocks bs).io = s.io := rfl
@[simp] theorem State.setHostBlocks_mem (s : State) (bs : List HostBlock) : (s.setHostBlocks bs).mem = s.mem := rfl
@[simp] theorem State.setHostBlocks_registrations (s : State) (bs : List HostBlock) : (s.setHostBlocks bs).registrations = s.registrations := rfl
@[simp] theorem State.setHostBlocks_hostBlocks (s : State) (bs : List HostBlock) : (s.setHostBlocks bs).hostBlocks = bs := rfl
@[simp] theorem State.setHostBlocks_master (s : State) (bs : List HostBlock) : (s.setHostBlocks bs).master = s.master := rfl
@[simp] theorem State.setHostBlocks_slave (s : State) (bs : List HostBlock) : (s.setHostBlocks bs).slave = s.slave := rfl
@[simp] theorem State.setHostBlocks_mux (s : State) (bs : List HostBlock) : (s.setHostBlocks bs).mux = s.mux := rfl
@[simp] theorem State.setHostBlocks_latch (s : State) (bs : List HostBlock) : (s.setHostBlocks bs).latch = s.latch := rfl
@[simp] theorem State.setHostBlocks_xtMap (s : State) (bs : List HostBlock) : (s.setHostBlocks bs).xtMap = s.xtMap := rfl
@[simp] theorem State.setHostBlocks_wiring (s : State) (bs : List HostBlock) : (s.setHostBlocks bs).wiring = s.wiring := rfl
@[simp] theorem State.setHostBlocks_sink (s : State) (bs : List HostBlock) : (s.setHostBlocks bs).sink = s.sink := rfl
@[simp] theorem State.setHostBlocks_threads (s : State) (bs : List HostBlock) : (s.setHostBlocks bs).threads = s.threads := rfl
@[simp] theorem State.setHostBlocks_active (s : State) (bs : List HostBlock) : (s.setHostBlocks bs).active = s.active := rfl
@[simp] theorem State.setHostBlocks_schedule (s : State) (bs : List HostBlock) : (s.setHostBlocks bs).schedule = s.schedule := rfl
@[simp] theorem State.setHostBlocks_clock (s : State) (bs : List HostBlock) : (s.setHostBlocks bs).clock = s.clock := rfl

/-! ## setMux -/

@[simp] theorem State.setMux_pics (s : State) (m : Demux) : (s.setMux m).pics = s.pics := rfl
@[simp] theorem State.setMux_io (s : State) (m : Demux) : (s.setMux m).io = s.io := rfl
@[simp] theorem State.setMux_mem (s : State) (m : Demux) : (s.setMux m).mem = s.mem := rfl
@[simp] theorem State.setMux_registrations (s : State) (m : Demux) : (s.setMux m).registrations = s.registrations := rfl
@[simp] theorem State.setMux_hostBlocks (s : State) (m : Demux) : (s.setMux m).hostBlocks = s.hostBlocks := rfl
@[simp] theorem State.setMux_master (s : State) (m : Demux) : (s.setMux m).master = s.master := rfl
@[simp] theorem State.setMux_slave (s : State) (m : Demux) : (s.setMux m).slave = s.slave := rfl
@[simp] theorem State.setMux_mux (s : State) (m : Demux) : (s.setMux m).mux = m := rfl
@[simp] theorem State.setMux_latch (s : State) (m : Demux) : (s.setMux m).latch = s.latch := rfl
@[simp] theorem State.setMux_xtMap (s : State) (m : Demux) : (s.setMux m).xtMap = s.xtMap := rfl
@[simp] theorem State.setMux_wiring (s : State) (m : Demux) : (s.setMux m).wiring = s.wiring := rfl
@[simp] theorem State.setMux_sink (s : State) (m : Demux) : (s.setMux m).sink = s.sink := rfl
@[simp] theorem State.setMux_threads (s : State) (m : Demux) : (s.setMux m).threads = s.threads := rfl
@[simp] theorem State.setMux_active (s : State) (m : Demux) : (s.setMux m).active = s.active := rfl
@[simp] theorem State.setMux_schedule (s : State) (m : Demux) : (s.setMux m).schedule = s.schedule := rfl
@[simp] theorem State.setMux_clock (s : State) (m : Demux) : (s.setMux m).clock = s.clock := rfl

/-! ## setLatch -/

@[simp] theorem State.setLatch_pics (s : State) (v : Half) : (s.setLatch v).pics = s.pics := rfl
@[simp] theorem State.setLatch_io (s : State) (v : Half) : (s.setLatch v).io = s.io := rfl
@[simp] theorem State.setLatch_mem (s : State) (v : Half) : (s.setLatch v).mem = s.mem := rfl
@[simp] theorem State.setLatch_registrations (s : State) (v : Half) : (s.setLatch v).registrations = s.registrations := rfl
@[simp] theorem State.setLatch_hostBlocks (s : State) (v : Half) : (s.setLatch v).hostBlocks = s.hostBlocks := rfl
@[simp] theorem State.setLatch_master (s : State) (v : Half) : (s.setLatch v).master = s.master := rfl
@[simp] theorem State.setLatch_slave (s : State) (v : Half) : (s.setLatch v).slave = s.slave := rfl
@[simp] theorem State.setLatch_mux (s : State) (v : Half) : (s.setLatch v).mux = s.mux := rfl
@[simp] theorem State.setLatch_latch (s : State) (v : Half) : (s.setLatch v).latch = v := rfl
@[simp] theorem State.setLatch_xtMap (s : State) (v : Half) : (s.setLatch v).xtMap = s.xtMap := rfl
@[simp] theorem State.setLatch_wiring (s : State) (v : Half) : (s.setLatch v).wiring = s.wiring := rfl
@[simp] theorem State.setLatch_sink (s : State) (v : Half) : (s.setLatch v).sink = s.sink := rfl
@[simp] theorem State.setLatch_threads (s : State) (v : Half) : (s.setLatch v).threads = s.threads := rfl
@[simp] theorem State.setLatch_active (s : State) (v : Half) : (s.setLatch v).active = s.active := rfl
@[simp] theorem State.setLatch_schedule (s : State) (v : Half) : (s.setLatch v).schedule = s.schedule := rfl
@[simp] theorem State.setLatch_clock (s : State) (v : Half) : (s.setLatch v).clock = s.clock := rfl

/-! ## setSink -/

@[simp] theorem State.setSink_pics (s : State) (k : Sink) : (s.setSink k).pics = s.pics := rfl
@[simp] theorem State.setSink_io (s : State) (k : Sink) : (s.setSink k).io = s.io := rfl
@[simp] theorem State.setSink_mem (s : State) (k : Sink) : (s.setSink k).mem = s.mem := rfl
@[simp] theorem State.setSink_registrations (s : State) (k : Sink) : (s.setSink k).registrations = s.registrations := rfl
@[simp] theorem State.setSink_hostBlocks (s : State) (k : Sink) : (s.setSink k).hostBlocks = s.hostBlocks := rfl
@[simp] theorem State.setSink_master (s : State) (k : Sink) : (s.setSink k).master = s.master := rfl
@[simp] theorem State.setSink_slave (s : State) (k : Sink) : (s.setSink k).slave = s.slave := rfl
@[simp] theorem State.setSink_mux (s : State) (k : Sink) : (s.setSink k).mux = s.mux := rfl
@[simp] theorem State.setSink_latch (s : State) (k : Sink) : (s.setSink k).latch = s.latch := rfl
@[simp] theorem State.setSink_xtMap (s : State) (k : Sink) : (s.setSink k).xtMap = s.xtMap := rfl
@[simp] theorem State.setSink_wiring (s : State) (k : Sink) : (s.setSink k).wiring = s.wiring := rfl
@[simp] theorem State.setSink_sink (s : State) (k : Sink) : (s.setSink k).sink = k := rfl
@[simp] theorem State.setSink_threads (s : State) (k : Sink) : (s.setSink k).threads = s.threads := rfl
@[simp] theorem State.setSink_active (s : State) (k : Sink) : (s.setSink k).active = s.active := rfl
@[simp] theorem State.setSink_schedule (s : State) (k : Sink) : (s.setSink k).schedule = s.schedule := rfl
@[simp] theorem State.setSink_clock (s : State) (k : Sink) : (s.setSink k).clock = s.clock := rfl

/-! ## selectDevice -/

@[simp] theorem State.selectDevice_pics (s : State) (d : Drive) : (s.selectDevice d).pics = s.pics := rfl
@[simp] theorem State.selectDevice_io (s : State) (d : Drive) : (s.selectDevice d).io = s.io := rfl
@[simp] theorem State.selectDevice_mem (s : State) (d : Drive) : (s.selectDevice d).mem = s.mem := rfl
@[simp] theorem State.selectDevice_registrations (s : State) (d : Drive) : (s.selectDevice d).registrations = s.registrations := rfl
@[simp] theorem State.selectDevice_hostBlocks (s : State) (d : Drive) : (s.selectDevice d).hostBlocks = s.hostBlocks := rfl
@[simp] theorem State.selectDevice_master (s : State) (d : Drive) : (s.selectDevice d).master = s.master := rfl
@[simp] theorem State.selectDevice_slave (s : State) (d : Drive) : (s.selectDevice d).slave = s.slave := rfl
@[simp] theorem State.selectDevice_mux (s : State) (d : Drive) : (s.selectDevice d).mux = { s.mux with selected := d } := rfl
@[simp] theorem State.selectDevice_latch (s : State) (d : Drive) : (s.selectDevice d).latch = s.latch := rfl
@[simp] theorem State.selectDevice_xtMap (s : State) (d : Drive) : (s.selectDevice d).xtMap = s.xtMap := rfl
@[simp] theorem State.selectDevice_wiring (s : State) (d : Drive) : (s.selectDevice d).wiring = s.wiring := rfl
@[simp] theorem State.selectDevice_sink (s : State) (d : Drive) : (s.selectDevice d).sink = s.sink := rfl
@[simp] theorem State.selectDevice_threads (s : State) (d : Drive) : (s.selectDevice d).threads = s.threads := rfl
@[simp] theorem State.selectDevice_active (s : State) (d : Drive) : (s.selectDevice d).active = s.active := rfl
@[simp] theorem State.selectDevice_schedule (s : State) (d : Drive) : (s.selectDevice d).schedule = s.schedule := rfl
@[simp] theorem State.selectDevice_clock (s : State) (d : Drive) : (s.selectDevice d).clock = s.clock := rfl

/-! ## beginStep -/

@[simp] theorem State.beginStep_pics (s : State) (a : Agent) : (s.beginStep a).pics = s.pics := rfl
@[simp] theorem State.beginStep_io (s : State) (a : Agent) : (s.beginStep a).io = s.io := rfl
@[simp] theorem State.beginStep_mem (s : State) (a : Agent) : (s.beginStep a).mem = s.mem := rfl
@[simp] theorem State.beginStep_registrations (s : State) (a : Agent) : (s.beginStep a).registrations = s.registrations := rfl
@[simp] theorem State.beginStep_hostBlocks (s : State) (a : Agent) : (s.beginStep a).hostBlocks = s.hostBlocks := rfl
@[simp] theorem State.beginStep_master (s : State) (a : Agent) : (s.beginStep a).master = s.master := rfl
@[simp] theorem State.beginStep_slave (s : State) (a : Agent) : (s.beginStep a).slave = s.slave := rfl
@[simp] theorem State.beginStep_mux (s : State) (a : Agent) : (s.beginStep a).mux = s.mux := rfl
@[simp] theorem State.beginStep_latch (s : State) (a : Agent) : (s.beginStep a).latch = s.latch := rfl
@[simp] theorem State.beginStep_xtMap (s : State) (a : Agent) : (s.beginStep a).xtMap = s.xtMap := rfl
@[simp] theorem State.beginStep_wiring (s : State) (a : Agent) : (s.beginStep a).wiring = s.wiring := rfl
@[simp] theorem State.beginStep_sink (s : State) (a : Agent) : (s.beginStep a).sink = s.sink := rfl
@[simp] theorem State.beginStep_threads (s : State) (a : Agent) : (s.beginStep a).threads = s.threads := rfl
@[simp] theorem State.beginStep_active (s : State) (a : Agent) : (s.beginStep a).active = a := rfl
@[simp] theorem State.beginStep_schedule (s : State) (a : Agent) : (s.beginStep a).schedule = s.schedule.tail := rfl
@[simp] theorem State.beginStep_clock (s : State) (a : Agent) : (s.beginStep a).clock = s.clock + 1 := rfl

/-! ## setDevice -/

@[simp] theorem State.setDevice_pics (s : State) (d : Drive) (dev : AtaDevice) : (s.setDevice d dev).pics = s.pics := by cases d <;> rfl
@[simp] theorem State.setDevice_io (s : State) (d : Drive) (dev : AtaDevice) : (s.setDevice d dev).io = s.io := by cases d <;> rfl
@[simp] theorem State.setDevice_mem (s : State) (d : Drive) (dev : AtaDevice) : (s.setDevice d dev).mem = s.mem := by cases d <;> rfl
@[simp] theorem State.setDevice_registrations (s : State) (d : Drive) (dev : AtaDevice) : (s.setDevice d dev).registrations = s.registrations := by cases d <;> rfl
@[simp] theorem State.setDevice_hostBlocks (s : State) (d : Drive) (dev : AtaDevice) : (s.setDevice d dev).hostBlocks = s.hostBlocks := by cases d <;> rfl
@[simp] theorem State.setDevice_mux (s : State) (d : Drive) (dev : AtaDevice) : (s.setDevice d dev).mux = s.mux := by cases d <;> rfl
@[simp] theorem State.setDevice_latch (s : State) (d : Drive) (dev : AtaDevice) : (s.setDevice d dev).latch = s.latch := by cases d <;> rfl
@[simp] theorem State.setDevice_xtMap (s : State) (d : Drive) (dev : AtaDevice) : (s.setDevice d dev).xtMap = s.xtMap := by cases d <;> rfl
@[simp] theorem State.setDevice_wiring (s : State) (d : Drive) (dev : AtaDevice) : (s.setDevice d dev).wiring = s.wiring := by cases d <;> rfl
@[simp] theorem State.setDevice_sink (s : State) (d : Drive) (dev : AtaDevice) : (s.setDevice d dev).sink = s.sink := by cases d <;> rfl
@[simp] theorem State.setDevice_threads (s : State) (d : Drive) (dev : AtaDevice) : (s.setDevice d dev).threads = s.threads := by cases d <;> rfl
@[simp] theorem State.setDevice_active (s : State) (d : Drive) (dev : AtaDevice) : (s.setDevice d dev).active = s.active := by cases d <;> rfl
@[simp] theorem State.setDevice_schedule (s : State) (d : Drive) (dev : AtaDevice) : (s.setDevice d dev).schedule = s.schedule := by cases d <;> rfl
@[simp] theorem State.setDevice_clock (s : State) (d : Drive) (dev : AtaDevice) : (s.setDevice d dev).clock = s.clock := by cases d <;> rfl

/-! ## setDispatcher -/

@[simp] theorem State.setDispatcher_pics (s : State) (sp : Space) (disp : Dispatcher) : (s.setDispatcher sp disp).pics = s.pics := by cases sp <;> rfl
@[simp] theorem State.setDispatcher_registrations (s : State) (sp : Space) (disp : Dispatcher) : (s.setDispatcher sp disp).registrations = s.registrations := by cases sp <;> rfl
@[simp] theorem State.setDispatcher_hostBlocks (s : State) (sp : Space) (disp : Dispatcher) : (s.setDispatcher sp disp).hostBlocks = s.hostBlocks := by cases sp <;> rfl
@[simp] theorem State.setDispatcher_master (s : State) (sp : Space) (disp : Dispatcher) : (s.setDispatcher sp disp).master = s.master := by cases sp <;> rfl
@[simp] theorem State.setDispatcher_slave (s : State) (sp : Space) (disp : Dispatcher) : (s.setDispatcher sp disp).slave = s.slave := by cases sp <;> rfl
@[simp] theorem State.setDispatcher_mux (s : State) (sp : Space) (disp : Dispatcher) : (s.setDispatcher sp disp).mux = s.mux := by cases sp <;> rfl
@[simp] theorem State.setDispatcher_latch (s : State) (sp : Space) (disp : Dispatcher) : (s.setDispatcher sp disp).latch = s.latch := by cases sp <;> rfl
@[simp] theorem State.setDispatcher_xtMap (s : State) (sp : Space) (disp : Dispatcher) : (s.setDispatcher sp disp).xtMap = s.xtMap := by cases sp <;> rfl
@[simp] theorem State.setDispatcher_wiring (s : State) (sp : Space) (disp : Dispatcher) : (s.setDispatcher sp disp).wiring = s.wiring := by cases sp <;> rfl
@[simp] theorem State.setDispatcher_sink (s : State) (sp : Space) (disp : Dispatcher) : (s.setDispatcher sp disp).sink = s.sink := by cases sp <;> rfl
@[simp] theorem State.setDispatcher_threads (s : State) (sp : Space) (disp : Dispatcher) : (s.setDispatcher sp disp).threads = s.threads := by cases sp <;> rfl
@[simp] theorem State.setDispatcher_active (s : State) (sp : Space) (disp : Dispatcher) : (s.setDispatcher sp disp).active = s.active := by cases sp <;> rfl
@[simp] theorem State.setDispatcher_schedule (s : State) (sp : Space) (disp : Dispatcher) : (s.setDispatcher sp disp).schedule = s.schedule := by cases sp <;> rfl
@[simp] theorem State.setDispatcher_clock (s : State) (sp : Space) (disp : Dispatcher) : (s.setDispatcher sp disp).clock = s.clock := by cases sp <;> rfl

/-! ## Parts of the state after an update -/

@[simp] theorem State.setDevice_device (s : State) (d e : Drive) (dev : AtaDevice) :
    (s.setDevice d dev).device e = if e = d then dev else s.device e := by
  cases d <;> cases e <;> rfl

@[simp] theorem State.setDispatcher_dispatcher (s : State) (sp sq : Space) (disp : Dispatcher) :
    (s.setDispatcher sp disp).dispatcher sq = if sq = sp then disp else s.dispatcher sq := by
  cases sp <;> cases sq <;> rfl

@[simp] theorem State.setThread_device (s : State) (a : Agent) (t : Thread) (e : Drive) :
    (s.setThread a t).device e = s.device e := by cases e <;> rfl
@[simp] theorem State.setThread_dispatcher (s : State) (a : Agent) (t : Thread) (sq : Space) :
    (s.setThread a t).dispatcher sq = s.dispatcher sq := by cases sq <;> rfl
@[simp] theorem State.pushFollow_device (s : State) (es : List Event) (e : Drive) :
    (s.pushFollow es).device e = s.device e := by cases e <;> rfl
@[simp] theorem State.pushFollow_dispatcher (s : State) (es : List Event) (sq : Space) :
    (s.pushFollow es).dispatcher sq = s.dispatcher sq := by cases sq <;> rfl
@[simp] theorem State.setFollow_device (s : State) (es : List Event) (e : Drive) :
    (s.setFollow es).device e = s.device e := by cases e <;> rfl
@[simp] theorem State.setFollow_dispatcher (s : State) (es : List Event) (sq : Space) :
    (s.setFollow es).dispatcher sq = s.dispatcher sq := by cases sq <;> rfl
@[simp] theorem State.answer_device (s : State) (bs : List Byte) (ds : List Diagnostic) (e : Drive) :
    (s.answer bs ds).device e = s.device e := by cases e <;> rfl
@[simp] theorem State.answer_dispatcher (s : State) (bs : List Byte) (ds : List Diagnostic) (sq : Space) :
    (s.answer bs ds).dispatcher sq = s.dispatcher sq := by cases sq <;> rfl
@[simp] theorem State.answerHandle_device (s : State) (k : Nat) (e : Drive) :
    (s.answerHandle k).device e = s.device e := by cases e <;> rfl
@[simp] theorem State.answerHandle_dispatcher (s : State) (k : Nat) (sq : Space) :
    (s.answerHandle k).dispatcher sq = s.dispatcher sq := by cases sq <;> rfl
@[simp] theorem State.answerRoute_device (s : State) (r : Route) (e : Drive) :
    (s.answerRoute r).device e = s.device e := by cases e <;> rfl
@[simp] theorem State.answerRoute_dispatcher (s : State) (r : Route) (sq : Space) :
    (s.answerRoute r).dispatcher sq = s.dispatcher sq := by cases sq <;> rfl
@[simp] theorem State.setPic_device (s : State) (p : Nat) (q : Pic) (e : Drive) :
    (s.setPic p q).device e = s.device e := by cases e <;> rfl
@[simp] theorem State.setPic_dispatcher (s : State) (p : Nat) (q : Pic) (sq : Space) :
    (s.setPic p q).dispatcher sq = s.dispatcher sq := by cases sq <;> rfl
@[simp] theorem State.setRegistrations_device (s : State) (gs : List Registration) (e : Drive) :
    (s.setRegistrations gs).device e = s.device e := by cases e <;> rfl
@[simp] theorem State.setRegistrations_dispatcher (s : State) (gs : List Registration) (sq : Space) :
    (s.setRegistrations gs).dispatcher sq = s.dispatcher sq := by cases sq <;> rfl
@[simp] theorem State.setHostBlocks_device (s : State) (bs : List HostBlock) (e : Drive) :
    (s.setHostBlocks bs).device e = s.device e := by cases e <;> rfl
@[simp] theorem State.setHostBlocks_dispatcher (s : State) (bs : List HostBlock) (sq : Space) :
    (s.setHostBlocks bs).dispatcher sq = s.dispatcher sq := by cases sq <;> rfl
@[simp] theorem State.setMux_device (s : State) (m : Demux) (e : Drive) :
    (s.setMux m).device e = s.device e := by cases e <;> rfl
@[simp] theorem State.setMux_dispatcher (s : State) (m : Demux) (sq : Space) :
    (s.setMux m).dispatcher sq = s.dispatcher sq := by cases sq <;> rfl
@[simp] theorem State.setLatch_device (s : State) (v : Half) (e : Drive) :
    (s.setLatch v).device e = s.device e := by cases e <;> rfl
@[simp] theorem State.setLatch_dispatcher (s : State) (v : Half) (sq : Space) :
    (s.setLatch v).dispatcher sq = s.dispatcher sq := by cases sq <;> rfl
@[simp] theorem State.setSink_device (s : State) (k : Sink) (e : Drive) :
    (s.setSink k).device e = s.device e := by cases e <;> rfl
@[simp] theorem State.setSink_dispatcher (s : State) (k : Sink) (sq : Space) :
    (s.setSink k).dispatcher sq = s.dispatcher sq := by cases sq <;> rfl
@[simp] theorem State.selectDevice_device (s : State) (d : Drive) (e : Drive) :
    (s.selectDevice d).device e = s.device e := by cases e <;> rfl
@[simp] theorem State.selectDevice_dispatcher (s : State) (d : Drive) (sq : Space) :
    (s.selectDevice d).dispatcher sq = s.dispatcher sq := by cases sq <;> rfl
@[simp] theorem State.beginStep_device (s : State) (a : Agent) (e : Drive) :
    (s.beginStep a).device e = s.device e := by cases e <;> rfl
@[simp] theorem State.beginStep_dispatcher (s : State) (a : Agent) (sq : Space) :
    (s.beginStep a).dispatcher sq = s.dispatcher sq := by cases sq <;> rfl
@[simp] theorem State.setDevice_dispatcher (s : State) (d : Drive) (dev : AtaDevice) (sq : Space) :
    (s.setDevice d dev).dispatcher sq = s.dispatcher sq := by cases d <;> cases sq <;> rfl
@[simp] theorem State.setDispatcher_device (s : State) (sp : Space) (disp : Dispatcher) (e : Drive) :
    (s.setDispatcher sp disp).device e = s.device e := by cases sp <;> cases e <;> rfl

/-! ## Threads -/

@[simp] theorem threadOf_putThread (l : List (Agent × Thread)) (a b : Agent) (t : Thread) :
    threadOf (putThread l a t) b = if b = a then t else threadOf l b := by
  induction l with
  | nil => simp only [putThread, threadOf, eq_comm]
  | cons x l ih =>
    obtain ⟨c, u⟩ := x
    by_cases hc : c = a
    · subst hc
      by_cases hb : c = b
      · subst hb; simp [putThread, threadOf]
      · have hb' : ¬ b = c := fun h => hb h.symm
        simp [putThread, threadOf, hb, hb']
    · by_cases hb : c = b
      · subst hb; simp [putThread, threadOf, hc]
      · simp [putThread, threadOf, hc, hb, ih]

@[simp] theorem State.setThread_thread (s : State) (a b : Agent) (t : Thread) :
    (s.setThread a t).thread b = if b = a then t else s.thread b := by
  simp [State.thread, State.setThread]

@[simp] theorem State.pushFollow_thread (s : State) (es : List Event) (c : Agent) :
    (s.pushFollow es).thread c =
      if c = s.active then
        { s.thread s.active with follow := es ++ (s.thread s.active).follow }
      else s.thread c := by
  simp [State.pushFollow]

@[simp] theorem State.setFollow_thread (s : State) (es : List Event) (c : Agent) :
    (s.setFollow es).thread c =
      if c = s.active then
        { s.thread s.active with follow := es }
      else s.thread c := by
  simp [State.setFollow]

@[simp] theorem State.answer_thread (s : State) (bs : List Byte) (ds : List Diagnostic) (c : Agent) :
    (s.answer bs ds).thread c =
      if c = s.active then
        { s.thread s.active with
        reply := { (s.thread s.active).reply with
          bytes := (s.thread s.active).reply.bytes ++ bs,
          diagnostics := (s.thread s.active).reply.diagnostics ++ ds } }
      else s.thread c := by
  simp [State.answer]

@[simp] theorem State.answerHandle_thread (s : State) (k : Nat) (c : Agent) :
    (s.answerHandle k).thread c =
      if c = s.active then
        { s.thread s.active with reply := { (s.thread s.active).reply with handle := some k } }
      else s.thread c := by
  simp [State.answerHandle]

@[simp] theorem State.answerRoute_thread (s : State) (r : Route) (c : Agent) :
    (s.answerRoute r).thread c =
      if c = s.active then
        { s.thread s.active with reply := { (s.thread s.active).reply with route := some r } }
      else s.thread c := by
  simp [State.answerRoute]

@[simp] theorem State.setPic_thread (s : State) (p : Nat) (q : Pic) (c : Agent) :
    (s.setPic p q).thread c = s.thread c := by rfl
@[simp] theorem State.setRegistrations_thread (s : State) (gs : List Registration) (c : Agent) :
    (s.setRegistrations gs).thread c = s.thread c := by rfl
@[simp] theorem State.setHostBlocks_thread (s : State) (bs : List HostBlock) (c : Agent) :
    (s.setHostBlocks bs).thread c = s.thread c := by rfl
@[simp] theorem State.setMux_thread (s : State) (m : Demux) (c : Agent) :
    (s.setMux m).thread c = s.thread c := by rfl
@[simp] theorem State.setLatch_thread (s : State) (v : Half) (c : Agent) :
    (s.setLatch v).thread c = s.thread c := by rfl
@[simp] theorem State.setSink_thread (s : State) (k : Sink) (c : Agent) :
    (s.setSink k).thread c = s.thread c := by rfl
@[simp] theorem State.selectDevice_thread (s : State) (d : Drive) (c : Agent) :
    (s.selectDevice d).thread c = s.thread c := by rfl
@[simp] theorem State.beginStep_thread (s : State) (a : Agent) (c : Agent) :
    (s.beginStep a).thread c = s.thread c := by rfl
@[simp] theorem State.setDevice_thread (s : State) (d : Drive) (dev : AtaDevice) (c : Agent) :
    (s.setDevice d dev).thread c = s.thread c := by cases d <;> rfl
@[simp] theorem State.setDispatcher_thread (s : State) (sp : Space) (disp : Dispatcher) (c : Agent) :
    (s.setDispatcher sp disp).thread c = s.thread c := by cases sp <;> rfl

/-! ## Destruction and construction, as the updates they are -/

@[simp] theorem State.requestStop_eq (s : State) (d : Drive) :
    s.requestStop d = s.setDevice d { s.device d with stopRequested := true } := rfl
@[simp] theorem State.teardown_eq (s : State) (d : Drive) :
    s.teardown d = (s.requestStop d).pushFollow [.join d] := rfl
@[simp] theorem State.addPic_eq (s : State) (old : List Pic) :
    s.addPic old = (s.setPics (old ++ [Pic.constructed noSecondaries])).answerHandle s.pics.length := rfl

end Sys2Proof.Machine
end

