-- ==== Sys2Proof/Laws/Ops.lean ====
section
/-! SUPPORT. What the shared operations do, said once: answering and going on, committing a PIC with its output (R180), and
committing a device with the demux output (R273). -/
namespace Sys2Proof.Machine

/-! ## Frames -/

theorem SamePics.refl (s : State) : SamePics s s := ⟨rfl, rfl⟩
theorem SameBus.refl (s : State) : SameBus s s := ⟨rfl, rfl, rfl, rfl⟩
theorem SameChannel.refl (s : State) : SameChannel s s := ⟨rfl, rfl, rfl, rfl⟩
theorem SameMemory.refl (s : State) : SameMemory s s := ⟨fun _ _ => rfl, fun _ _ => rfl⟩

theorem SameAgents.refl (s : State) : SameAgents s s := ⟨rfl, rfl, rfl, rfl, rfl, fun _ _ => rfl, rfl⟩

theorem SamePics.trans {s t u : State} (h : SamePics s t) (k : SamePics t u) : SamePics s u :=
  ⟨k.pics.trans h.pics, k.sink.trans h.sink⟩

theorem SameBus.trans {s t u : State} (h : SameBus s t) (k : SameBus t u) : SameBus s u :=
  ⟨k.io.trans h.io, k.mem.trans h.mem, k.registrations.trans h.registrations, k.hostBlocks.trans h.hostBlocks⟩

theorem SameChannel.trans {s t u : State} (h : SameChannel s t) (k : SameChannel t u) : SameChannel s u :=
  ⟨k.master.trans h.master, k.slave.trans h.slave, k.mux.trans h.mux, k.latch.trans h.latch⟩

theorem SameMemory.trans {s t u : State} (h : SameMemory s t) (k : SameMemory t u) : SameMemory s u :=
  ⟨fun m a => (k.host m a).trans (h.host m a), fun d a => (k.store d a).trans (h.store d a)⟩

theorem SameAgents.trans {s t u : State} (h : SameAgents s t) (k : SameAgents t u) : SameAgents s u := by
  refine ⟨k.xtMap.trans h.xtMap, k.wiring.trans h.wiring, k.active.trans h.active, k.schedule.trans h.schedule,
    k.clock.trans h.clock, fun a ha => ?_, ?_⟩
  · rw [k.others a (by rwa [h.active]), h.others a ha]
  · rw [← h.program, ← h.active, k.program]

theorem QuietFrame.refl (s : State) : QuietFrame s s :=
  ⟨.refl s, .refl s, .refl s, .refl s, .refl s⟩

theorem QuietFrame.trans {s t u : State} (h : QuietFrame s t) (k : QuietFrame t u) : QuietFrame s u :=
  ⟨h.pics.trans k.pics, h.bus.trans k.bus, h.channel.trans k.channel, h.agents.trans k.agents,
    h.memory.trans k.memory⟩

theorem SameChannel.device {s t : State} (h : SameChannel s t) (d : Drive) : t.device d = s.device d := by
  cases d
  · exact h.master
  · exact h.slave

theorem SameBus.dispatcher {s t : State} (h : SameBus s t) (sp : Space) : t.dispatcher sp = s.dispatcher sp := by
  cases sp
  · exact h.io
  · exact h.mem

/-- Memory is the same where the host blocks and the backing stores are. -/
theorem SameMemory.of_eq {s t : State} (h : t.hostBlocks = s.hostBlocks)
    (k : ∀ d, (t.device d).store = (s.device d).store) : SameMemory s t :=
  ⟨fun m a => by simp only [State.hostByte, h], fun d a => by simp only [State.storeByte, k d]⟩

theorem Answered.refl (s : State) : Answered [] [] s s := ⟨by simp, by simp, rfl, rfl⟩
theorem Continues.refl (s : State) : Continues [] s s := rfl

theorem Answered.trans {s t u : State} {b c : List Byte} {d e : List Diagnostic} (hact : t.active = s.active)
    (h : Answered b d s t) (k : Answered c e t u) : Answered (b ++ c) (d ++ e) s u := by
  constructor
  · rw [← List.append_assoc, ← h.bytes, ← hact, k.bytes]
  · rw [← List.append_assoc, ← h.diagnostics, ← hact, k.diagnostics]
  · rw [← h.handle, ← hact, k.handle]
  · rw [← h.route, ← hact, k.route]

theorem Continues.trans {s t u : State} {es fs : List Event} (hact : t.active = s.active) (h : Continues es s t)
    (k : Continues fs t u) : Continues (fs ++ es) s u := by
  unfold Continues at *
  rw [List.append_assoc, ← h, ← hact, k]

/-! ## Answering and going on -/

theorem State.setThread_sameAgents (s : State) (t : Thread) (h : t.program = (s.thread s.active).program) :
    SameAgents s (s.setThread s.active t) :=
  ⟨by simp, by simp, by simp, by simp, by simp, fun a ha => by simp [ha], by simp [h]⟩

theorem State.setThread_quiet (s : State) (t : Thread) (h : t.program = (s.thread s.active).program) :
    QuietFrame s (s.setThread s.active t) :=
  ⟨⟨by simp, by simp⟩, ⟨by simp, by simp, by simp, by simp⟩, ⟨by simp, by simp, by simp, by simp⟩,
    s.setThread_sameAgents t h, .of_eq (by simp) (by simp)⟩

theorem State.pushFollow_quiet (s : State) (es : List Event) : QuietFrame s (s.pushFollow es) :=
  s.setThread_quiet _ rfl

theorem State.answer_quiet (s : State) (bs : List Byte) (ds : List Diagnostic) : QuietFrame s (s.answer bs ds) :=
  s.setThread_quiet _ rfl

theorem State.answerHandle_quiet (s : State) (k : Nat) : QuietFrame s (s.answerHandle k) :=
  s.setThread_quiet _ rfl

theorem State.answerRoute_quiet (s : State) (r : Route) : QuietFrame s (s.answerRoute r) :=
  s.setThread_quiet _ rfl

theorem State.pushFollow_continues (s : State) (es : List Event) : Continues es s (s.pushFollow es) := by
  simp [Continues]

theorem State.pushFollow_answered (s : State) (es : List Event) : Answered [] [] s (s.pushFollow es) := by
  constructor <;> simp

theorem State.answer_answered (s : State) (bs : List Byte) (ds : List Diagnostic) :
    Answered bs ds s (s.answer bs ds) := by
  constructor <;> simp

theorem State.answer_continues (s : State) (bs : List Byte) (ds : List Diagnostic) :
    Continues [] s (s.answer bs ds) := by
  simp [Continues]

/-! ## The output line of a PIC (R180) -/

theorem Pic.settled_eq_self {q : Pic} (h : q.outputLevel = q.out) : q.settled = q := by
  show ({ q with out := q.outputLevel } : Pic) = q
  rw [h]

/-- The wiring of the outputs does not depend on what the PICs hold. -/
theorem primaryIn_set (p k : Nat) (l : List Pic) (m : Nat) (q r : Pic) (h : l[m]? = some q)
    (hsec : r.secondary = q.secondary) : primaryIn p (l.set m r) k = primaryIn p l k := by
  induction l generalizing k m with
  | nil => simp at h
  | cons x l ih =>
    cases m with
    | zero =>
      simp only [List.getElem?_cons_zero, Option.some.injEq] at h
      subst h
      simp only [List.set_cons_zero, primaryIn, hsec]
    | succ m =>
      simp only [List.getElem?_cons_succ] at h
      simp only [List.set_cons_succ, primaryIn, ih _ _ h]

/-- What `commitPic` does: the PIC is stored with its output settled, the receiver is told of a change, and nothing else
happens. `u` is the state after the operation has answered `bytes` and put `rest` before what its agent does next. -/
theorem State.commitPic_spec {s u : State} {p : Nat} {q q' : Pic} {rest : List Event} {bytes : List Byte}
    (hq : s.pics[p]? = some q) (hout : q'.out = q.out) (hsec : q'.secondary = q.secondary) (hu : QuietFrame s u)
    (hc : Continues rest s u) (ha : Answered bytes [] s u) :
    PicUpdated p q q' rest s (u.commitPic p q') ∧ Answered bytes [] s (u.commitPic p q') ∧
      PicFrame s (u.commitPic p q') := by
  have hact := hu.agents.active
  have hprim : ∀ r : Pic, r.secondary = q.secondary → (u.setPic p r).primaryLine p = s.primaryLine p := by
    intro r hr
    simp only [State.primaryLine, State.setPic_pics, hu.pics.pics]
    exact primaryIn_set p 0 s.pics p q r hq hr
  unfold State.commitPic
  by_cases h : q'.outputLevel = q'.out
  · have hset := Pic.settled_eq_self h
    have hsame : q'.settled.out = q.out := by rw [hset, hout]
    rw [if_pos h]
    refine ⟨⟨by simp [hu.pics.pics, hset], ?_, by simp [sinkAfter, hsame, hu.pics.sink]⟩,
      ⟨by simpa using ha.bytes, by simpa using ha.diagnostics, by simpa using ha.handle, by simpa using ha.route⟩,
      ⟨⟨hu.bus.io, hu.bus.mem, hu.bus.registrations, hu.bus.hostBlocks⟩,
        ⟨hu.channel.master, hu.channel.slave, hu.channel.mux, hu.channel.latch⟩,
        ⟨hu.agents.xtMap, hu.agents.wiring, hact, hu.agents.schedule, hu.agents.clock,
          fun a h => by simpa using hu.agents.others a h, by simpa using hu.agents.program⟩,
        ⟨hu.memory.host, fun d a => by simpa [State.storeByte] using hu.memory.store d a⟩⟩⟩
    simpa [Continues, outputEvents, hsame] using hc
  · have hne : q'.outputLevel ≠ q.out := by rw [← hout]; exact h
    have hq' : { q' with out := q'.outputLevel } = q'.settled := rfl
    rw [if_neg h, hq']
    unfold State.notifyReceiver
    rw [hprim q'.settled hsec]
    cases hp : s.primaryLine p with
    | none =>
      refine ⟨⟨by simp [hu.pics.pics], ?_, by simp [sinkAfter, hne, hp, hu.pics.sink, Pic.settled_out]⟩,
        ⟨by simpa using ha.bytes, by simpa using ha.diagnostics, by simpa using ha.handle, by simpa using ha.route⟩,
        ⟨⟨hu.bus.io, hu.bus.mem, hu.bus.registrations, hu.bus.hostBlocks⟩,
          ⟨hu.channel.master, hu.channel.slave, hu.channel.mux, hu.channel.latch⟩,
          ⟨hu.agents.xtMap, hu.agents.wiring, hact, hu.agents.schedule, hu.agents.clock,
            fun a h => by simpa using hu.agents.others a h, by simpa using hu.agents.program⟩,
          ⟨hu.memory.host, fun d a => by simpa [State.storeByte] using hu.memory.store d a⟩⟩⟩
      simpa [Continues, outputEvents, hne, hp] using hc
    | some l =>
      refine ⟨⟨by simp [hu.pics.pics], ?_, by simp [sinkAfter, hp, hu.pics.sink]⟩,
        ⟨by simpa [hact] using ha.bytes, by simpa [hact] using ha.diagnostics, by simpa [hact] using ha.handle,
          by simpa [hact] using ha.route⟩,
        ⟨⟨by simp [hu.bus.io], by simp [hu.bus.mem], by simp [hu.bus.registrations], by simp [hu.bus.hostBlocks]⟩,
          ⟨by simp [hu.channel.master], by simp [hu.channel.slave], by simp [hu.channel.mux], by simp [hu.channel.latch]⟩,
          ⟨by simp [hu.agents.xtMap], by simp [hu.agents.wiring], by simp [hact], by simp [hu.agents.schedule],
            by simp [hu.agents.clock], fun a h => by simp [hact, h, hu.agents.others a h],
            by simp [hact, hu.agents.program]⟩,
          ⟨fun m a => by simpa [State.hostByte] using hu.memory.host m a,
            fun d a => by simpa [State.storeByte] using hu.memory.store d a⟩⟩⟩
      have : (u.thread s.active).follow = rest ++ (s.thread s.active).follow := hc
      simp [Continues, outputEvents, hne, hp, hact, this, Pic.settled_out]

/-- What storing a PIC without recomputing its output does. -/
theorem State.setPic_spec {s u : State} {p : Nat} {q' : Pic} {rest : List Event} {bytes : List Byte}
    (hu : QuietFrame s u) (hc : Continues rest s u) (ha : Answered bytes [] s u) :
    PicStored p q' rest s (u.setPic p q') ∧ Answered bytes [] s (u.setPic p q') ∧ PicFrame s (u.setPic p q') := by
  refine ⟨⟨by simp [hu.pics.pics], by simpa [Continues] using hc, by simp [hu.pics.sink]⟩,
    ⟨by simpa using ha.bytes, by simpa using ha.diagnostics, by simpa using ha.handle, by simpa using ha.route⟩,
    ⟨⟨hu.bus.io, hu.bus.mem, hu.bus.registrations, hu.bus.hostBlocks⟩,
      ⟨hu.channel.master, hu.channel.slave, hu.channel.mux, hu.channel.latch⟩,
      ⟨hu.agents.xtMap, hu.agents.wiring, hu.agents.active, hu.agents.schedule, hu.agents.clock,
        fun a h => by simpa using hu.agents.others a h, by simpa using hu.agents.program⟩,
      ⟨hu.memory.host, fun d a => by simpa [State.storeByte] using hu.memory.store d a⟩⟩⟩

/-! ## The demux output (R273) -/

/-- `updateMux` does nothing where the output already shows the selected device's level. -/
theorem State.updateMux_eq_self {s : State} (h : (s.device s.mux.selected).visible = s.mux.out) : s.updateMux = s := by
  simp [State.updateMux, h]

/-- The fields `updateMux` does not touch, and the demux after it. -/
theorem State.updateMux_fields (s : State) :
    s.updateMux.mux = { s.mux with out := (s.device s.mux.selected).visible } ∧
      s.updateMux.pics = s.pics ∧ s.updateMux.sink = s.sink ∧ s.updateMux.io = s.io ∧ s.updateMux.mem = s.mem ∧
      s.updateMux.registrations = s.registrations ∧ s.updateMux.hostBlocks = s.hostBlocks ∧
      s.updateMux.latch = s.latch ∧ (∀ d, s.updateMux.device d = s.device d) ∧ SameAgents s s.updateMux := by
  unfold State.updateMux
  split
  · rename_i h
    refine ⟨?_, rfl, rfl, rfl, rfl, rfl, rfl, rfl, fun _ => rfl, .refl s⟩
    rw [h]
  · unfold State.driveLine
    split
    · refine ⟨by simp, by simp, by simp, by simp, by simp, by simp, by simp, by simp, by simp, ?_⟩
      exact ⟨by simp, by simp, by simp, by simp, by simp, fun a ha => by simp [ha], by simp⟩
    · refine ⟨by simp, by simp, by simp, by simp, by simp, by simp, by simp, by simp, by simp, ?_⟩
      exact ⟨by simp, by simp, by simp, by simp, by simp, fun a ha => by simp, by simp⟩

/-- `updateMux` tells the host line of a change and answers nothing. -/
theorem State.updateMux_thread (s : State) :
    Continues (muxEvents s s.mux.out s.updateMux.mux.out) s s.updateMux ∧ Answered [] [] s s.updateMux := by
  have hm := (State.updateMux_fields s).1
  rw [hm]
  unfold State.updateMux
  by_cases h : (s.device s.mux.selected).visible = s.mux.out
  · rw [if_pos h]
    exact ⟨by simp [Continues, muxEvents, h], .refl s⟩
  · rw [if_neg h]
    unfold State.driveLine
    cases hw : s.wiring.muxLine with
    | none => exact ⟨by simp [Continues, muxEvents, h, hw], ⟨by simp, by simp, by simp, by simp⟩⟩
    | some l => exact ⟨by simp [Continues, muxEvents, h, hw], ⟨by simp, by simp, by simp, by simp⟩⟩

@[simp] theorem State.updateMux_device (s : State) (d : Drive) : s.updateMux.device d = s.device d :=
  (State.updateMux_fields s).2.2.2.2.2.2.2.2.1 d

/-- What storing a device in a commit does to the device, the demux and the rest. -/
theorem State.commitDevice_spec {s u : State} {d : Drive} {dev : AtaDevice} {bytes : List Byte}
    {ds : List Diagnostic} (hu : QuietFrame s u) (hc : Continues [] s u) (ha : Answered bytes ds s u) :
    DeviceUpdated d dev s (u.commitDevice d dev) ∧ Answered bytes ds s (u.commitDevice d dev) ∧
      SamePics s (u.commitDevice d dev) ∧ SameBus s (u.commitDevice d dev) ∧
      (u.commitDevice d dev).device (otherDrive d) = s.device (otherDrive d) ∧
      (u.commitDevice d dev).latch = s.latch ∧ SameAgents s (u.commitDevice d dev) := by
  obtain ⟨hmux, hpics, hsink, hio, hmem, hreg, hblk, hlatch, hdev, hag⟩ := State.updateMux_fields (u.setDevice d dev)
  obtain ⟨hcont, hans⟩ := State.updateMux_thread (u.setDevice d dev)
  have hact := hu.agents.active
  have hmx : (u.commitDevice d dev).mux =
      { s.mux with out := ((u.commitDevice d dev).device s.mux.selected).visible } := by
    simp only [State.commitDevice, hmux, State.setDevice_mux, hu.channel.mux, hdev]
  refine ⟨⟨by simp [State.commitDevice], hmx, ?_⟩, ?_, ?_, ?_, ?_, ?_, ?_⟩
  · simp only [Continues, State.setDevice_thread, State.setDevice_active, State.setDevice_mux, hact,
      hu.channel.mux] at hcont
    have hc' : (u.thread s.active).follow = [] ++ (s.thread s.active).follow := hc
    rw [List.nil_append] at hc'
    rw [hc'] at hcont
    unfold Continues
    rw [show (u.commitDevice d dev).thread s.active = (u.setDevice d dev).updateMux.thread s.active from rfl, hcont]
    simp only [muxEvents, State.setDevice_wiring, hu.agents.wiring, State.commitDevice]
    rfl
  · unfold State.commitDevice
    have h1 : Answered bytes ds s (u.setDevice d dev) :=
      ⟨by simpa using ha.bytes, by simpa using ha.diagnostics, by simpa using ha.handle, by simpa using ha.route⟩
    simpa using h1.trans (by simp [hact]) hans
  · exact ⟨by rw [State.commitDevice, hpics]; simp [hu.pics.pics], by rw [State.commitDevice, hsink]; simp [hu.pics.sink]⟩
  · exact ⟨by rw [State.commitDevice, hio]; simp [hu.bus.io], by rw [State.commitDevice, hmem]; simp [hu.bus.mem],
      by rw [State.commitDevice, hreg]; simp [hu.bus.registrations],
      by rw [State.commitDevice, hblk]; simp [hu.bus.hostBlocks]⟩
  · have hne : otherDrive d ≠ d := by cases d <;> simp [otherDrive]
    simp [State.commitDevice, hne, hu.channel.device]
  · rw [State.commitDevice, hlatch]; simp [hu.channel.latch]
  · have h1 : SameAgents s (u.setDevice d dev) :=
      ⟨by simp [hu.agents.xtMap], by simp [hu.agents.wiring], by simp [hact], by simp [hu.agents.schedule],
        by simp [hu.agents.clock], fun a h => by simpa using hu.agents.others a h,
        by simpa using hu.agents.program⟩
    exact h1.trans hag

/-- A commit of a device with the same backing store leaves every byte of memory as it was. -/
theorem State.commitDevice_frame {s u : State} {d : Drive} {dev : AtaDevice} {bytes : List Byte}
    {ds : List Diagnostic} (hu : QuietFrame s u) (hc : Continues [] s u) (ha : Answered bytes ds s u)
    (hstore : dev.store = (s.device d).store) :
    DeviceUpdated d dev s (u.commitDevice d dev) ∧ Answered bytes ds s (u.commitDevice d dev) ∧
      DeviceFrame d s (u.commitDevice d dev) := by
  obtain ⟨h1, h2, h3, h4, h5, h6, h7⟩ := State.commitDevice_spec (d := d) (dev := dev) hu hc ha
  refine ⟨h1, h2, h3, h4, h5, h6, h7, .of_eq h4.hostBlocks (fun e => ?_)⟩
  by_cases he : e = d
  · subst he; rw [h1.device, hstore]
  · have : e = otherDrive d := by cases e <;> cases d <;> simp_all [otherDrive]
    rw [this, h5]

end Sys2Proof.Machine
end

