-- ==== Sys2Proof/Laws/Exec.lean ====
section
/-! SUPPORT. What `exec` can do, said once: if it answers a next state, then the PICs, the dispatchers, the host blocks, the
devices, the demux output and the agents changed in one of the ways listed here. Invariants and frames over all
instructions are derived from `exec_effect`, without unfolding a meaning again. -/
namespace Sys2Proof.Machine

/-- What an instruction can make of one PIC. -/
inductive PicChange (i : Instr) (p : Nat) (q : Pic) : Pic → Prop
  | icw1 (b : Byte) : i.accessesPic p = true → PicChange i p q (q.takeIcw1 b).settled
  | icw2 (b : Byte) : i.accessesPic p = true → PicChange i p q (q.takeIcw2 b)
  | icw3 (b : Byte) : i.accessesPic p = true → PicChange i p q (q.takeIcw3 b)
  | icw4 (b : Byte) : i.accessesPic p = true → PicChange i p q (q.takeIcw4 b)
  | ocw1 (b : Byte) : PicChange i p q (q.takeOcw1 b).settled
  | eoi : PicChange i p q q.endOfInterrupt.settled
  | eoiAt (n : Fin 8) : PicChange i p q (q.endOfInterruptAt n).settled
  | ocw3 (b : Byte) : i.accessesPic p = true → b &&& ocw3Smm = 0 → PicChange i p q (q.takeOcw3 b)
  | polled : i.accessesPic p = true → PicChange i p q { q with fsm := .idle }
  | elcr (b : Byte) : PicChange i p q { q with elcr := b }
  | level (n : Fin 8) (a : Bool) : q.level n = true → PicChange i p q (q.levelLine n a).settled
  | edge (n : Fin 8) (a : Bool) : q.level n = false → PicChange i p q (q.edgeLine n a).settled
  | acknowledge (n : Fin 8) : i.acknowledgesPic p = true → PicChange i p q (q.acknowledged n).settled

/-- What an instruction can make of a dispatcher. -/
inductive DispatcherChange (blocks : List HostBlock) (disp : Dispatcher) : Dispatcher → Prop
  | register (r : AddressRange) : r.beginAddress < r.endAddress → disp.ranges.any (rangesOverlap r) = false →
      (∀ m, r.handler = .memory m → m < blocks.length) →
      DispatcherChange blocks disp (Dispatcher.register blocks disp r)
  | unregister (r : AddressRange) : DispatcherChange blocks disp (Dispatcher.unregister blocks disp r)
  | attach (b : EngineBinding) : disp.engine = none →
      DispatcherChange blocks disp (disp.ranges.foldl (Dispatcher.mapRange blocks) { disp with engine := some b })
  | detach : DispatcherChange blocks disp
      { disp.mapped.foldl (Dispatcher.unmapRange blocks) disp with engine := none }

/-- What an instruction can make of one ATA device. -/
inductive DeviceChange (i : Instr) (d : Drive) (dev : AtaDevice) : AtaDevice → Prop
  | write (k : Nat) (v : Half) (r : DeviceReply) : dev.writeIndex k v = .next r → DeviceChange i d dev r.dev
  | read (k : Nat) : DeviceChange i d dev (AtaDevice.readIndex d dev k).dev
  | control (b : Byte) : DeviceChange i d dev (dev.deviceControl b)
  | command (b : Byte) (rec : RegFile) (e : Executed) : i.worksFor d = true →
      commandEffect b d { dev with commandRequested := false } rec = .next e →
      DeviceChange i d dev (e.dev.complete e.res)
  | stop : i.worksFor d = true → DeviceChange i d dev dev.workerStop
  | reset : i.worksFor d = true → DeviceChange i d dev dev.workerReset
  | continueRead (op : Operation) (dev' : AtaDevice) : i.worksFor d = true → dev.op = some op →
      dev.continueRead op = .next dev' → DeviceChange i d dev dev'
  | continueWrite (op : Operation) (dev' : AtaDevice) : i.worksFor d = true → dev.op = some op →
      AtaDevice.continueWrite d dev op = .next dev' → DeviceChange i d dev dev'

/-- What an instruction can do. -/
structure Effect (i : Instr) (s t : State) : Prop where
  pics : t.pics = s.pics ∨
    ∃ p q q', s.pics[p]? = some q ∧ PicChange i p q q' ∧ t.pics = s.pics.set p q'
  dispatchers : ∀ sp, t.dispatcher sp = s.dispatcher sp ∨
    DispatcherChange s.hostBlocks (s.dispatcher sp) (t.dispatcher sp)
  hostBlocks : t.hostBlocks = s.hostBlocks
  devices : ∀ d, t.device d = s.device d ∨ DeviceChange i d (s.device d) (t.device d)
  out : t.mux.out = (t.device t.mux.selected).visible ∨ (t.mux = s.mux ∧ ∀ d, t.device d = s.device d)
  agents : SameAgents s t

/-! ## The shared operations have such an effect -/

theorem Effect.quiet {i : Instr} {s t : State} (h : QuietFrame s t) : Effect i s t :=
  ⟨.inl h.pics.pics, fun sp => .inl (h.bus.dispatcher sp), h.bus.hostBlocks,
    fun d => .inl (h.channel.device d), .inr ⟨h.channel.mux, h.channel.device⟩, h.agents⟩

theorem Effect.refl (i : Instr) (s : State) : Effect i s s := .quiet (.refl s)

theorem Effect.picFrame {i : Instr} {s t : State} (h : PicFrame s t)
    (hp : t.pics = s.pics ∨ ∃ p q q', s.pics[p]? = some q ∧ PicChange i p q q' ∧ t.pics = s.pics.set p q') :
    Effect i s t :=
  ⟨hp, fun sp => .inl (h.bus.dispatcher sp), h.bus.hostBlocks, fun d => .inl (h.channel.device d),
    .inr ⟨h.channel.mux, h.channel.device⟩, h.agents⟩

theorem Effect.commitPic {i : Instr} {s u : State} {p : Nat} {q q' : Pic} {rest : List Event} {bytes : List Byte}
    (hq : s.pics[p]? = some q) (hout : q'.out = q.out) (hsec : q'.secondary = q.secondary) (hu : QuietFrame s u)
    (hc : Continues rest s u) (ha : Answered bytes [] s u) (h : PicChange i p q q'.settled) :
    Effect i s (u.commitPic p q') := by
  obtain ⟨h1, -, h3⟩ := State.commitPic_spec hq hout hsec hu hc ha
  exact .picFrame h3 (.inr ⟨p, q, _, hq, h, h1.pics⟩)

theorem Effect.setPic {i : Instr} {s u : State} {p : Nat} {q q' : Pic} {rest : List Event} {bytes : List Byte}
    (hq : s.pics[p]? = some q) (hu : QuietFrame s u) (hc : Continues rest s u) (ha : Answered bytes [] s u)
    (h : PicChange i p q q') : Effect i s (u.setPic p q') := by
  obtain ⟨h1, -, h3⟩ := State.setPic_spec (p := p) (q' := q') hu hc ha
  exact .picFrame h3 (.inr ⟨p, q, _, hq, h, h1.pics⟩)

theorem Effect.commitDevice {i : Instr} {s u : State} {d : Drive} {dev : AtaDevice} {bytes : List Byte}
    {ds : List Diagnostic} (hu : QuietFrame s u) (hc : Continues [] s u) (ha : Answered bytes ds s u)
    (h : dev = s.device d ∨ DeviceChange i d (s.device d) dev) : Effect i s (u.commitDevice d dev) := by
  obtain ⟨h1, -, h3, h4, h5, -, h7⟩ := State.commitDevice_spec (d := d) (dev := dev) hu hc ha
  refine ⟨.inl h3.pics, fun sp => .inl (h4.dispatcher sp), h4.hostBlocks, fun e => ?_, .inl ?_, h7⟩
  · by_cases he : e = d
    · subst he; rw [h1.device]; exact h
    · have : e = otherDrive d := by cases e <;> cases d <;> simp_all [otherDrive]
      rw [this, h5]; exact .inl rfl
  · rw [h1.mux]

theorem Effect.dispatcher {i : Instr} {s t : State} {sp : Space} (h : DispatcherFrame sp s t)
    (hd : t.dispatcher sp = s.dispatcher sp ∨ DispatcherChange s.hostBlocks (s.dispatcher sp) (t.dispatcher sp)) :
    Effect i s t := by
  refine ⟨.inl h.pics.pics, fun sq => ?_, h.hostBlocks, fun d => .inl (h.channel.device d),
    .inr ⟨h.channel.mux, h.channel.device⟩, h.agents⟩
  by_cases he : sq = sp
  · subst he; exact hd
  · exact .inl (h.other sq he)

/-! ## Inversion of the shared operations -/

theorem State.withPic_next {s t : State} {p : Nat} {k : Pic → Result} (h : s.withPic p k = .next t) :
    ∃ q, s.pics[p]? = some q ∧ k q = .next t := by
  unfold State.withPic at h
  cases hq : s.pics[p]? with
  | none => rw [hq] at h; cases h
  | some q => rw [hq] at h; exact ⟨q, rfl, h⟩

theorem State.inIdle_next {s t : State} {p : Nat} {k : Pic → Result} (h : s.inIdle p k = .next t) :
    ∃ q, s.pics[p]? = some q ∧ q.fsm = .idle ∧ k q = .next t := by
  obtain ⟨q, hq, h⟩ := State.withPic_next h
  by_cases hi : q.fsm = .idle
  · rw [if_pos hi] at h; exact ⟨q, hq, hi, h⟩
  · rw [if_neg hi] at h; cases h

theorem State.picIcw1_effect {i : Instr} {s t : State} {p : Nat} {b : Byte} (hi : i.accessesPic p = true)
    (h : s.picIcw1 p b = .next t) : Effect i s t := by
  obtain ⟨q, hq, h⟩ := State.withPic_next h
  cases h
  exact .commitPic hq rfl rfl (.refl s) (.refl s) (.refl s) (.icw1 b hi)

theorem Pic.endOfInterrupt_fields (q : Pic) :
    q.endOfInterrupt.out = q.out ∧ q.endOfInterrupt.secondary = q.secondary := by
  unfold Pic.endOfInterrupt; split <;> exact ⟨rfl, rfl⟩

theorem State.picEoi_effect {i : Instr} {s t : State} {p : Nat} (h : s.picEoi p = .next t) : Effect i s t := by
  obtain ⟨q, hq, -, h⟩ := State.inIdle_next h
  cases h
  exact .commitPic hq q.endOfInterrupt_fields.1 q.endOfInterrupt_fields.2 (.refl s) (.refl s) (.refl s) .eoi

theorem State.picEoiAt_effect {i : Instr} {s t : State} {p : Nat} {n : Fin 8} (h : s.picEoiAt p n = .next t) :
    Effect i s t := by
  obtain ⟨q, hq, -, h⟩ := State.inIdle_next h
  cases h
  exact .commitPic hq rfl rfl (.refl s) (.refl s) (.refl s) (.eoiAt n)

theorem State.picOcw3_effect {i : Instr} {s u t : State} {p : Nat} {b : Byte} {rest : List Event}
    (hi : i.accessesPic p = true) (hu : QuietFrame s u) (hc : Continues rest s u) (ha : Answered [] [] s u)
    (h : u.picOcw3 p b = .next t) : Effect i s t := by
  obtain ⟨q, hq, -, h⟩ := State.inIdle_next h
  rw [hu.pics.pics] at hq
  by_cases hb : b &&& ocw3Smm = 0
  · rw [if_pos hb] at h
    cases h
    exact .setPic hq hu hc ha (.ocw3 b hi hb)
  · rw [if_neg hb] at h; cases h

theorem State.picDataWrite_effect {i : Instr} {s t : State} {p : Nat} {b : Byte} (hi : i.accessesPic p = true)
    (h : s.picDataWrite p b = .next t) : Effect i s t := by
  obtain ⟨q, hq, h⟩ := State.withPic_next h
  cases hf : q.fsm <;> rw [hf] at h <;> cases h
  · exact .commitPic hq rfl rfl (.refl s) (.refl s) (.refl s) (.ocw1 b)
  · exact .setPic hq (.refl s) (.refl s) (.refl s) (.icw2 b hi)
  · exact .setPic hq (.refl s) (.refl s) (.refl s) (.icw3 b hi)
  · exact .setPic hq (.refl s) (.refl s) (.refl s) (.icw4 b hi)

theorem State.picDataRead_effect {i : Instr} {s t : State} {p : Nat} (hi : i.accessesPic p = true)
    (h : s.picDataRead p = .next t) : Effect i s t := by
  obtain ⟨q, hq, h⟩ := State.withPic_next h
  by_cases hf : q.fsm = .poll
  · rw [if_pos hf] at h
    cases h
    exact .setPic (u := s.answer [q.pollByte] []) hq (s.answer_quiet _ _) (s.answer_continues _ _)
      (s.answer_answered _ _) (.polled hi)
  · rw [if_neg hf] at h
    cases h
    exact .quiet (s.answer_quiet _ _)

theorem State.picCommandRead_effect {i : Instr} {s t : State} {p : Nat} (h : s.picCommandRead p = .next t) :
    Effect i s t := by
  obtain ⟨q, -, h⟩ := State.withPic_next h
  by_cases hf : q.fsm = .poll
  · rw [if_pos hf] at h; cases h
  · rw [if_neg hf] at h; cases h; exact .quiet (s.answer_quiet _ _)

theorem State.setLine_effect {i : Instr} {s t : State} {p : Nat} {n : Fin 8} {a : Bool}
    (h : s.setLine p n a = .next t) : Effect i s t := by
  obtain ⟨q, hq, h⟩ := State.withPic_next h
  by_cases hl : q.level n = true
  · rw [if_pos hl] at h; cases h
    exact .commitPic hq rfl rfl (.refl s) (.refl s) (.refl s) (.level n a hl)
  · rw [if_neg hl] at h; cases h
    exact .commitPic hq rfl rfl (.refl s) (.refl s) (.refl s) (.edge n a (Bool.eq_false_iff.2 hl))

theorem State.acknowledge_effect {i : Instr} {s t : State} {p : Nat} (hi : i.acknowledgesPic p = true)
    (h : s.acknowledge p = .next t) : Effect i s t := by
  obtain ⟨q, hq, h⟩ := State.withPic_next h
  cases hs : q.select with
  | none => rw [hs] at h; cases h; exact .quiet (s.answer_quiet _ _)
  | some n =>
    rw [hs] at h
    simp only at h
    cases hsec : q.secondary.get n with
    | none =>
      rw [hsec] at h; cases h
      exact .commitPic hq rfl rfl (s.answer_quiet _ _) (s.answer_continues _ _) (s.answer_answered _ _)
        (.acknowledge n hi)
    | some sec =>
      rw [hsec] at h; cases h
      exact .commitPic hq rfl rfl (s.pushFollow_quiet _) (s.pushFollow_continues _) (s.pushFollow_answered _)
        (.acknowledge n hi)

/-! ## ATA devices -/

theorem State.ataWrite_effect {i : Instr} {s t : State} {d : Drive} {k : Nat} {v : Half}
    (h : s.ataWrite d k v = .next t) : Effect i s t := by
  unfold State.ataWrite State.continueAccess at h
  cases hw : (s.device d).writeIndex k v with
  | next r =>
    rw [hw] at h; cases h
    exact .commitDevice (s.answer_quiet _ _) (s.answer_continues _ _) (s.answer_answered _ _)
      (.inr (.write k v r hw))
  | fault f => rw [hw] at h; cases h
  | refused r => rw [hw] at h; cases h

theorem State.ataRead_effect {i : Instr} {s t : State} {d : Drive} {k : Nat} (h : s.ataRead d k = .next t) :
    Effect i s t := by
  cases h
  exact .commitDevice (s.answer_quiet _ _) (s.answer_continues _ _) (s.answer_answered _ _) (.inr (.read k))

theorem State.writeControl_effect {i : Instr} (s : State) (d : Drive) (k : Nat) (v : Half) :
    Effect i s (s.finishAccess d ((s.device d).writeControl k v)) := by
  refine .commitDevice (s.answer_quiet _ _) (s.answer_continues _ _) (s.answer_answered _ _) ?_
  unfold AtaDevice.writeControl
  split
  · exact .inr (.control _)
  · exact .inl rfl

theorem State.readControl_effect {i : Instr} (s : State) (d : Drive) (k : Nat) :
    Effect i s (s.finishAccess d ((s.device d).readControl k)) := by
  refine .commitDevice (s.answer_quiet _ _) (s.answer_continues _ _) (s.answer_answered _ _) (.inl ?_)
  unfold AtaDevice.readControl
  split <;> rfl

theorem State.runCommand_effect {i : Instr} {s t : State} {d : Drive} {b : Byte} {rec : RegFile}
    (hi : i.worksFor d = true) (h : s.runCommand d (commandEffect b) rec = .next t) : Effect i s t := by
  unfold State.runCommand at h
  cases he : commandEffect b d { s.device d with commandRequested := false } rec with
  | next e =>
    rw [he] at h; cases h
    exact .commitDevice (.refl s) (.refl s) (.refl s) (.inr (.command b rec e hi he))
  | fault f => rw [he] at h; cases h
  | refused r => rw [he] at h; cases h

theorem State.workerStep_effect {i : Instr} {s t : State} {d : Drive} (hi : i.worksFor d = true)
    (h : s.workerStep d = .next t) : Effect i s t := by
  have hcont : ∀ t, s.workerContinue d = .next t → Effect i s t := by
    intro t h
    unfold State.workerContinue at h
    cases hop : (s.device d).op with
    | none => rw [hop] at h; cases h; exact .refl i s
    | some op =>
      rw [hop] at h
      simp only at h
      cases hk : op.kind with
      | read =>
        rw [hk] at h
        simp only [State.finishWorker] at h
        cases hr : (s.device d).continueRead op with
        | next dev =>
          rw [hr] at h; cases h
          exact .commitDevice (.refl s) (.refl s) (.refl s) (.inr (.continueRead op dev hi hop hr))
        | fault f => rw [hr] at h; cases h
        | refused r => rw [hr] at h; cases h
      | write =>
        rw [hk] at h
        simp only [State.finishWorker] at h
        cases hr : AtaDevice.continueWrite d (s.device d) op with
        | next dev =>
          rw [hr] at h; cases h
          exact .commitDevice (.refl s) (.refl s) (.refl s) (.inr (.continueWrite op dev hi hop hr))
        | fault f => rw [hr] at h; cases h
        | refused r => rw [hr] at h; cases h
  unfold State.workerStep at h
  cases hw : (s.device d).workerKind with
  | none => rw [hw] at h; cases h; exact .refl i s
  | some k =>
    rw [hw] at h
    cases k with
    | stop => cases h; exact .commitDevice (.refl s) (.refl s) (.refl s) (.inr (.stop hi))
    | reset => cases h; exact .commitDevice (.refl s) (.refl s) (.refl s) (.inr (.reset hi))
    | command => exact State.runCommand_effect hi h
    | continueRead => exact hcont t h
    | continueWrite => exact hcont t h

/-! ## Demux and XTIDE -/

/-- Any update of the demux, then `updateMux`: the output shows the selected device. -/
theorem Effect.updateMux {i : Instr} {s u : State} (hp : SamePics s u) (hb : SameBus s u)
    (hd : ∀ d, u.device d = s.device d ∨ DeviceChange i d (s.device d) (u.device d)) (hag : SameAgents s u) :
    Effect i s u.updateMux := by
  obtain ⟨hmux, hpics, -, hio, hmem, -, hblk, -, hdev, hag'⟩ := State.updateMux_fields u
  refine ⟨.inl (hpics.trans hp.pics), fun sp => .inl ?_, hblk.trans hb.hostBlocks, fun d => ?_, .inl ?_,
    hag.trans hag'⟩
  · cases sp
    · exact hio.trans hb.io
    · exact hmem.trans hb.mem
  · rw [hdev]; exact hd d
  · rw [hdev, hmux]

theorem State.muxDriveHead_effect {i : Instr} {s t : State} {b : Byte} (h : s.muxDriveHead b = .next t) :
    Effect i s t := by
  unfold State.muxDriveHead State.ataWrite State.continueAccess at h
  have hdev : (s.selectDevice (selectedDrive b)).device (selectedDrive b) = s.device (selectedDrive b) := by simp
  rw [hdev] at h
  cases hw : (s.device (selectedDrive b)).writeIndex 6 (byteOnBus b) with
  | next r =>
    rw [hw] at h; cases h
    unfold State.finishAccess State.commitDevice
    refine .updateMux ⟨by simp, by simp⟩ ⟨by simp, by simp, by simp, by simp⟩ (fun d => ?_)
      ⟨by simp, by simp, by simp, by simp, by simp, fun a ha => by simp [ha], by simp⟩
    by_cases hd : d = selectedDrive b
    · subst hd; simp only [State.setDevice_device, if_true]; exact .inr (.write 6 _ r hw)
    · simp [hd]
  | fault f => rw [hw] at h; cases h
  | refused r => rw [hw] at h; cases h

theorem State.muxWrite_effect {i : Instr} {s t : State} {k : Nat} {v : Half} (h : s.muxWrite k v = .next t) :
    Effect i s t := by
  unfold State.muxWrite at h
  split at h
  · exact State.muxDriveHead_effect h
  · exact State.ataWrite_effect h

theorem State.muxDeviceControl_effect {i : Instr} (s : State) (b : Byte) : Effect i s (s.muxDeviceControl b) := by
  refine .updateMux ⟨by simp, by simp⟩ ⟨by simp, by simp, by simp, by simp⟩ (fun d => ?_)
    ⟨by simp, by simp, by simp, by simp, by simp, fun a ha => by simp, by simp⟩
  cases d
  · exact .inr (.control _)
  · exact .inr (.control _)

theorem State.updateMux_effect {i : Instr} (s : State) : Effect i s s.updateMux :=
  .updateMux (.refl s) (.refl s) (fun _ => .inl rfl) (.refl s)

theorem State.xtReadLow_effect {i : Instr} {s u : State} (k : Nat) (hp : SamePics s u) (hb : SameBus s u)
    (hd : ∀ d, u.device d = s.device d) (hag : SameAgents s u) : Effect i s (u.xtReadLow k) := by
  refine .updateMux ⟨by simp [hp.pics], by simp [hp.sink]⟩
    ⟨by simp [hb.io], by simp [hb.mem], by simp [hb.registrations], by simp [hb.hostBlocks]⟩ (fun d => ?_)
    ⟨by simp [hag.xtMap], by simp [hag.wiring], by simp [hag.active], by simp [hag.schedule], by simp [hag.clock],
      fun a ha => by simp [hag.active, ha, hag.others a ha], by simp [hag.active, hag.program]⟩
  by_cases he : d = u.mux.selected
  · subst he
    simp only [State.setDevice_device, if_true, hd]
    exact .inr (.read k)
  · simp [he, hd]

theorem State.xtRead_effect {i : Instr} {s t : State} {o : Nat} (h : s.xtRead o = .next t) : Effect i s t := by
  unfold State.xtRead at h
  cases hx : s.xtAt o with
  | commandBlock k =>
    rw [hx] at h; cases h
    split
    · exact State.xtReadLow_effect 0 ⟨by simp, by simp⟩ ⟨by simp, by simp, by simp, by simp⟩ (by simp)
        ⟨by simp, by simp, by simp, by simp, by simp, fun a ha => by simp, by simp⟩
    · exact State.xtReadLow_effect k.val (.refl s) (.refl s) (fun _ => rfl) (.refl s)
  | controlBlock => rw [hx] at h; cases h; exact .quiet (s.answer_quiet _ _)
  | dataHigh => rw [hx] at h; cases h; exact .quiet (s.answer_quiet _ _)
  | unmapped => rw [hx] at h; cases h; exact .quiet (s.answer_quiet _ _)

theorem State.xtWrite_effect {i : Instr} {s t : State} {o : Nat} {b : Byte} (h : s.xtWrite o b = .next t) :
    Effect i s t := by
  unfold State.xtWrite at h
  cases hx : s.xtAt o with
  | commandBlock k => rw [hx] at h; exact State.muxWrite_effect h
  | controlBlock => rw [hx] at h; cases h; exact State.muxDeviceControl_effect s b
  | dataHigh =>
    rw [hx] at h; cases h
    exact ⟨.inl (by simp), fun sp => .inl (by simp), by simp, fun d => .inl (by simp),
      .inr ⟨by simp, by simp⟩, ⟨by simp, by simp, by simp, by simp, by simp, fun a ha => by simp, by simp⟩⟩
  | unmapped => rw [hx] at h; cases h; exact .quiet (s.answer_quiet _ _)

theorem State.xtAccess_effect {i : Instr} {s t : State} {o : Nat} {acc : ByteAccess}
    (h : s.xtAccess o acc = .next t) : Effect i s t := by
  cases acc with
  | read => exact State.xtRead_effect h
  | write b => exact State.xtWrite_effect h

/-! ## Dispatchers -/

theorem Dispatcher.mapRange_ranges (bs : List HostBlock) (disp : Dispatcher) (r : AddressRange) :
    (Dispatcher.mapRange bs disp r).ranges = disp.ranges := rfl

theorem Dispatcher.unmapRange_ranges (bs : List HostBlock) (disp : Dispatcher) (r : AddressRange) :
    (Dispatcher.unmapRange bs disp r).ranges = disp.ranges := rfl

theorem Dispatcher.foldl_mapRange_ranges (bs : List HostBlock) (l : List AddressRange) (disp : Dispatcher) :
    (l.foldl (Dispatcher.mapRange bs) disp).ranges = disp.ranges := by
  induction l generalizing disp with
  | nil => rfl
  | cons r l ih => rw [List.foldl_cons, ih]; rfl

theorem Dispatcher.foldl_unmapRange_ranges (bs : List HostBlock) (l : List AddressRange) (disp : Dispatcher) :
    (l.foldl (Dispatcher.unmapRange bs) disp).ranges = disp.ranges := by
  induction l generalizing disp with
  | nil => rfl
  | cons r l ih => rw [List.foldl_cons, ih]; rfl

theorem Dispatcher.foldl_mapRange_addrBits (bs : List HostBlock) (l : List AddressRange) (disp : Dispatcher) :
    (l.foldl (Dispatcher.mapRange bs) disp).addrBits = disp.addrBits := by
  induction l generalizing disp with
  | nil => rfl
  | cons r l ih => rw [List.foldl_cons, ih]; rfl

theorem Dispatcher.foldl_unmapRange_addrBits (bs : List HostBlock) (l : List AddressRange) (disp : Dispatcher) :
    (l.foldl (Dispatcher.unmapRange bs) disp).addrBits = disp.addrBits := by
  induction l generalizing disp with
  | nil => rfl
  | cons r l ih => rw [List.foldl_cons, ih]; rfl

theorem Dispatcher.register_addrBits (bs : List HostBlock) (disp : Dispatcher) (r : AddressRange) :
    (Dispatcher.register bs disp r).addrBits = disp.addrBits := by
  unfold Dispatcher.register; split <;> rfl

theorem Dispatcher.unregister_addrBits (bs : List HostBlock) (disp : Dispatcher) (r : AddressRange) :
    (Dispatcher.unregister bs disp r).addrBits = disp.addrBits := by
  unfold Dispatcher.unregister; simp only; split <;> rfl

theorem Dispatcher.register_ranges (bs : List HostBlock) (disp : Dispatcher) (r : AddressRange) :
    (Dispatcher.register bs disp r).ranges = insertRange r disp.ranges := by
  unfold Dispatcher.register; split <;> rfl

theorem Dispatcher.unregister_ranges (bs : List HostBlock) (disp : Dispatcher) (r : AddressRange) :
    (Dispatcher.unregister bs disp r).ranges = disp.ranges.filter (fun q => q ≠ r) := rfl

/-- What replacing one dispatcher and the handles leaves alone. -/
theorem State.setDispatcher_frame (s : State) (sp : Space) (disp : Dispatcher) (gs : List Registration)
    (h : disp.addrBits = (s.dispatcher sp).addrBits) :
    DispatcherFrame sp s ((s.setDispatcher sp disp).setRegistrations gs) :=
  ⟨⟨by simp, by simp⟩, by simp [h], fun sq h => by simp [h], by simp, ⟨by simp, by simp, by simp, by simp⟩,
    ⟨by simp, by simp, by simp, by simp, by simp, fun a ha => by simp, by simp⟩, .of_eq (by simp) (by simp)⟩

theorem DispatcherFrame.quiet {sp : Space} {s t u : State} (h : DispatcherFrame sp s t) (k : QuietFrame t u) :
    DispatcherFrame sp s u :=
  ⟨h.pics.trans k.pics, by rw [k.bus.dispatcher, h.addrBits],
    fun sq hs => (k.bus.dispatcher sq).trans (h.other sq hs),
    k.bus.hostBlocks.trans h.hostBlocks, h.channel.trans k.channel, h.agents.trans k.agents,
    h.memory.trans k.memory⟩

theorem State.setRegistrations_self (s : State) : s.setRegistrations s.registrations = s := rfl

theorem State.setDispatcher_registrations_self (s : State) (sp : Space) (disp : Dispatcher) :
    (s.setDispatcher sp disp).setRegistrations s.registrations = s.setDispatcher sp disp := by
  cases sp <;> rfl

/-- A host-backed handler that is not absent names a block that exists. -/
theorem State.absentHandler_memory {s : State} {h : Handler} (hh : s.absentHandler h = none) :
    ∀ m, h = .memory m → m < s.hostBlocks.length := by
  rintro m rfl
  simpa [State.absentHandler] using hh

theorem execReg_effect {i : Instr} {s t : State} {sp : Space} {base limit : Nat} {h : Handler} {off : Nat}
    (he : execReg sp base limit h off s = .next t) : Effect i s t := by
  unfold execReg at he
  simp only at he
  split at he
  · cases he
  · rename_i hlt
    split at he
    · cases he
    · rename_i hov
      cases hh : s.absentHandler h with
      | some what => rw [hh] at he; cases he
      | none =>
        rw [hh] at he
        cases he
        refine .dispatcher ((State.setDispatcher_frame s sp _ _ (Dispatcher.register_addrBits _ _ _)).quiet
          (State.answerHandle_quiet _ _)) (.inr ?_)
        have hr := DispatcherChange.register (blocks := s.hostBlocks) (disp := s.dispatcher sp) ⟨base, limit, off, h⟩
          (by simp only; omega) (Bool.eq_false_iff.2 hov) (State.absentHandler_memory hh)
        simpa using hr

theorem execRelease_effect {i : Instr} {s t : State} {k : Nat} {op : HandleOp}
    (he : execRelease k op s = .next t) : Effect i s t := by
  unfold execRelease at he
  cases hg : s.registrations[k]? with
  | none => rw [hg] at he; cases he
  | some g =>
    rw [hg] at he
    cases op with
    | release =>
      cases he
      refine .dispatcher (sp := .io) ⟨⟨by simp, by simp⟩, by simp, fun sq _ => by simp, by simp,
        ⟨by simp, by simp, by simp, by simp⟩,
        ⟨by simp, by simp, by simp, by simp, by simp, fun a ha => by simp, by simp⟩, .of_eq (by simp) (by simp)⟩
        (.inl (by simp))
    | destroy =>
      simp only at he
      split at he
      · cases he
        refine .dispatcher (State.setDispatcher_frame s g.space _ _ (Dispatcher.unregister_addrBits _ _ _)) (.inr ?_)
        have hu := DispatcherChange.unregister (blocks := s.hostBlocks) (disp := s.dispatcher g.space) g.range
        simpa [State.unregister] using hu
      · cases he; exact .refl i s
    | move =>
      cases he
      refine .dispatcher (sp := .io) (DispatcherFrame.quiet ⟨⟨by simp, by simp⟩, by simp, fun sq _ => by simp, by simp,
        ⟨by simp, by simp, by simp, by simp⟩,
        ⟨by simp, by simp, by simp, by simp, by simp, fun a ha => by simp, by simp⟩, .of_eq (by simp) (by simp)⟩
        (State.answerHandle_quiet _ _)) (.inl (by simp))

theorem execUnreg_effect {i : Instr} {s t : State} {sp : Space} {r : AddressRange}
    (he : execUnreg sp r s = .next t) : Effect i s t := by
  cases he
  have h := State.setDispatcher_frame s sp (Dispatcher.unregister s.hostBlocks (s.dispatcher sp) r) s.registrations
    (Dispatcher.unregister_addrBits _ _ _)
  rw [State.setDispatcher_registrations_self] at h
  exact .dispatcher h (.inr (by simpa [State.unregister] using DispatcherChange.unregister r))

theorem execEstablishMappings_effect {i : Instr} {s t : State} {sp : Space} {engine base limit : Nat}
    (he : execEstablishMappings sp engine base limit s = .next t) : Effect i s t := by
  unfold execEstablishMappings at he
  simp only at he
  split at he
  · cases he
  · rename_i hn
    cases he
    have h := State.setDispatcher_frame s sp ((s.dispatcher sp).ranges.foldl (Dispatcher.mapRange s.hostBlocks)
        { s.dispatcher sp with engine := some { engine := engine, base := base, limit := limit } }) s.registrations
      (Dispatcher.foldl_mapRange_addrBits _ _ _)
    rw [State.setDispatcher_registrations_self] at h
    exact .dispatcher h (.inr (by
      simpa using DispatcherChange.attach (blocks := s.hostBlocks) (disp := s.dispatcher sp) ⟨engine, base, limit⟩
        (by simpa using hn)))

theorem execRemoveMappings_effect {i : Instr} {s t : State} {sp : Space}
    (he : execRemoveMappings sp s = .next t) : Effect i s t := by
  cases he
  have h := State.setDispatcher_frame s sp
    { (s.dispatcher sp).mapped.foldl (Dispatcher.unmapRange s.hostBlocks) (s.dispatcher sp) with engine := none }
    s.registrations (Dispatcher.foldl_unmapRange_addrBits _ _ _)
  rw [State.setDispatcher_registrations_self] at h
  exact .dispatcher h (.inr (by
    simpa using DispatcherChange.detach (blocks := s.hostBlocks) (disp := s.dispatcher sp)))

/-- What goes on with a host block goes on with one that exists. -/
theorem State.withBlock_next {s t : State} {m : Nat} {k : HostBlock → Result} (h : s.withBlock m k = .next t) :
    ∃ b, s.hostBlocks[m]? = some b ∧ k b = .next t := by
  unfold State.withBlock at h
  cases hb : s.hostBlocks[m]? with
  | none => rw [hb] at h; cases h
  | some b => rw [hb] at h; exact ⟨b, rfl, h⟩

theorem execSplitWrite_effect {i : Instr} {s t : State} {h : Handler} {a sz w : Nat} {v : Quad}
    (he : execSplitWrite h a sz v w s = .next t) : Effect i s t := by
  unfold execSplitWrite at he
  cases h with
  | port dev => cases he; exact .quiet (s.pushFollow_quiet _)
  | memory m =>
    obtain ⟨b, -, he⟩ := State.withBlock_next he
    cases he
    exact .quiet (s.pushFollow_quiet _)

theorem execSplitRead_effect {i : Instr} {s t : State} {h : Handler} {a sz w : Nat}
    (he : execSplitRead h a sz w s = .next t) : Effect i s t := by
  unfold execSplitRead at he
  cases h with
  | port dev => cases he; exact .quiet (s.pushFollow_quiet _)
  | memory m =>
    obtain ⟨b, -, he⟩ := State.withBlock_next he
    cases he
    exact .quiet (s.pushFollow_quiet _)

theorem execInPort_effect {i : Instr} {s t : State} {sp : Space} {a sz : Nat}
    (he : execInPort sp a sz s = .next t) : Effect i s t := by
  unfold execInPort at he
  split at he <;> cases he
  · exact .quiet (s.pushFollow_quiet _)
  · exact .quiet (s.answer_quiet _ _)

theorem execOutPort_effect {i : Instr} {s t : State} {sp : Space} {a sz : Nat} {v : Quad}
    (he : execOutPort sp a sz v s = .next t) : Effect i s t := by
  unfold execOutPort at he
  split at he <;> cases he
  · exact .quiet (s.pushFollow_quiet _)
  · exact .quiet (s.answer_quiet _ _)

theorem execPicInit_effect {s t : State} {p : Nat} {i1 i2 i3 i4 : Byte}
    (he : execPicInit p i1 i2 i3 i4 s = .next t) : Effect (.picInit p i1 i2 i3 i4) s t := by
  unfold execPicInit State.picIcw1 at he
  obtain ⟨q, hq, h⟩ := State.withPic_next he
  rw [State.pushFollow_pics] at hq
  cases h
  exact .commitPic hq rfl rfl (s.pushFollow_quiet _) (s.pushFollow_continues _)
    (s.pushFollow_answered _) (.icw1 i1 (by simp [Instr.accessesPic]))

theorem State.idleNop_effect {i : Instr} {s t : State} {p : Nat}
    (h : s.inIdle p (fun _ => .next s) = .next t) : Effect i s t := by
  obtain ⟨q, -, -, h⟩ := State.inIdle_next h
  cases h
  exact .refl i s

theorem State.idleFault_ne {s t : State} {p : Nat} {f : Fault} (h : s.inIdle p (fun _ => .fault f) = .next t) :
    False := by
  obtain ⟨q, -, -, h⟩ := State.inIdle_next h
  cases h

theorem State.picUnspecified_ne {s t : State} {p : Nat} {port : PicPort} {dir : Direction}
    (h : s.picUnspecified p port dir = .next t) : False := by
  obtain ⟨q, -, h⟩ := State.withPic_next h
  cases h

theorem execAtaBadIndex_effect {i : Instr} {s t : State} {d : Drive} {blk : AtaBlock} {k : Nat} {acc : Access}
    (h : execAtaBadIndex d blk k acc s = .next t) : Effect i s t := by
  cases blk <;> cases acc
  · exact State.ataRead_effect h
  · exact State.ataWrite_effect h
  · cases h; exact State.readControl_effect s d k
  · cases h; exact State.writeControl_effect s d k _

theorem execMuxForward_effect {i : Instr} {s t : State} {k : Nat} {acc : Access}
    (h : execMuxForward k acc s = .next t) : Effect i s t := by
  cases acc
  · exact State.ataRead_effect h
  · exact State.muxWrite_effect h

theorem execPicBadPort_effect {i : Instr} {s t : State} {dev : PortDevice} {off : Nat} {acc : ByteAccess}
    (h : execPicBadPort dev off acc s = .next t) : Effect i s t := by
  cases acc <;> cases h <;> exact .quiet (s.answer_quiet _ _)

theorem execElcrWrite_effect {i : Instr} {s t : State} {p : Nat} {b : Byte} (h : execElcrWrite p b s = .next t) :
    Effect i s t := by
  obtain ⟨q, hq, h⟩ := State.withPic_next h
  cases h
  exact .setPic hq (.refl s) (.refl s) (.refl s) (.elcr b)

theorem execElcrRead_effect {i : Instr} {s t : State} {p : Nat} (h : execElcrRead p s = .next t) :
    Effect i s t := by
  obtain ⟨q, -, h⟩ := State.withPic_next h
  cases h
  exact .quiet (s.answer_quiet _ _)

theorem execPoll_effect {s t : State} {p : Nat} (h : execPoll p s = .next t) : Effect (.poll p) s t :=
  State.picOcw3_effect (by simp [Instr.accessesPic]) (s.pushFollow_quiet _) (s.pushFollow_continues _)
    (s.pushFollow_answered _) h

/-! ## Every instruction -/

/-- If `exec` answers a next state, what it did is one of the listed effects. -/
theorem exec_effect {i : Instr} {s t : State} (h : exec i s = .next t) : Effect i s t := by
  cases i with
  | icw1 p b => exact State.picIcw1_effect (by simp [Instr.accessesPic]) h
  | ocw2Eoi p b => exact State.picEoi_effect h
  | ocw2Seoi p b => exact State.picEoiAt_effect h
  | ocw2NopSl p b => exact State.idleNop_effect h
  | ocw2Nop0 p b => exact State.idleNop_effect h
  | ocw2Rotate p b => exact (State.idleFault_ne h).elim
  | ocw3 p b => exact State.picOcw3_effect (by simp [Instr.accessesPic]) (.refl s) (.refl s) (.refl s) h
  | ocw3Poll p b => exact State.picOcw3_effect (by simp [Instr.accessesPic]) (.refl s) (.refl s) (.refl s) h
  | ocw3Smm p b => exact (State.idleFault_ne h).elim
  | picCmdWriteUnspec p b => exact (State.picUnspecified_ne h).elim
  | icw2 p b => exact State.picDataWrite_effect (by simp [Instr.accessesPic]) h
  | icw3 p b => exact State.picDataWrite_effect (by simp [Instr.accessesPic]) h
  | icw4 p b => exact State.picDataWrite_effect (by simp [Instr.accessesPic]) h
  | ocw1 p b => exact State.picDataWrite_effect (by simp [Instr.accessesPic]) h
  | picDataWriteUnspec p b => exact (State.picUnspecified_ne h).elim
  | pollRead p => exact State.picDataRead_effect (by simp [Instr.accessesPic]) h
  | maskRead p => exact State.picDataRead_effect (by simp [Instr.accessesPic]) h
  | irrIsrRead p => exact State.picCommandRead_effect h
  | picCmdReadUnspec p => exact (State.picUnspecified_ne h).elim
  | picBadPort dev off acc => exact execPicBadPort_effect (dev := dev) (off := off) h
  | elcrWrite p b => exact execElcrWrite_effect h
  | elcrRead p => exact execElcrRead_effect h
  | lineLevel p n a => exact State.setLine_effect h
  | lineEdge p n a => exact State.setLine_effect h
  | inta p => exact State.acknowledge_effect (by simp [Instr.acknowledgesPic]) h
  | intaSpurious p => exact State.acknowledge_effect (by simp [Instr.acknowledgesPic]) h
  | intaCascade p => exact State.acknowledge_effect (by simp [Instr.acknowledgesPic]) h
  | picInit p i1 i2 i3 i4 => exact execPicInit_effect h
  | eoi p => exact State.picEoi_effect h
  | seoi p n => exact State.picEoiAt_effect h
  | poll p => exact execPoll_effect h
  | mask p m => exact State.picDataWrite_effect (by simp [Instr.accessesPic]) h
  | splitWrite hd a sz v w => exact execSplitWrite_effect h
  | splitRead hd a sz w => exact execSplitRead_effect h
  | reg sp base limit hd off => exact execReg_effect h
  | release k op => exact execRelease_effect h
  | unreg sp r => exact execUnreg_effect h
  | resolve sp a => cases h; exact .quiet (s.answerRoute_quiet _)
  | inPort sp a sz => exact execInPort_effect h
  | outPort sp a sz v => exact execOutPort_effect h
  | establishMappings sp engine base limit => exact execEstablishMappings_effect h
  | removeMappings sp => exact execRemoveMappings_effect h
  | ataFeatureW d b => exact State.ataWrite_effect h
  | ataSectorCountW d b => exact State.ataWrite_effect h
  | ataSectorNumberW d b => exact State.ataWrite_effect h
  | ataCylinderLowW d b => exact State.ataWrite_effect h
  | ataCylinderHighW d b => exact State.ataWrite_effect h
  | ataDriveHeadW d b => exact State.ataWrite_effect h
  | ataGatedW d k b => exact State.ataWrite_effect h
  | ataCommandW d b => exact State.ataWrite_effect h
  | ataDataW d v => exact State.ataWrite_effect (d := d) (k := 0) (v := v) h
  | ataDataWIdle d v => exact State.ataWrite_effect (d := d) (k := 0) (v := v) h
  | ataDataR d => exact State.ataRead_effect h
  | ataDataRIdle d => exact State.ataRead_effect h
  | ataErrorR d => exact State.ataRead_effect h
  | ataSectorCountR d => exact State.ataRead_effect h
  | ataSectorNumberR d => exact State.ataRead_effect h
  | ataCylinderLowR d => exact State.ataRead_effect h
  | ataCylinderHighR d => exact State.ataRead_effect h
  | ataDriveHeadR d => exact State.ataRead_effect h
  | ataStatusR d => exact State.ataRead_effect h
  | ataBusyR d k => exact State.ataRead_effect h
  | ataBadIndex d blk k acc => exact execAtaBadIndex_effect h
  | ataAltStatusR d => cases h; exact State.readControl_effect s d 6
  | ataDeviceControlW d b => cases h; exact State.writeControl_effect s d 6 _
  | recalibrate d => exact State.runCommand_effect (b := 0x10) (rec := s.record d 0x10) (by simp [Instr.worksFor]) h
  | readSectors d => exact State.runCommand_effect (b := 0x20) (rec := s.record d 0x20) (by simp [Instr.worksFor]) h
  | readSectorsNoRetry d => exact State.runCommand_effect (b := 0x21) (rec := s.record d 0x21) (by simp [Instr.worksFor]) h
  | writeSectors d => exact State.runCommand_effect (b := 0x30) (rec := s.record d 0x30) (by simp [Instr.worksFor]) h
  | writeSectorsNoRetry d => exact State.runCommand_effect (b := 0x31) (rec := s.record d 0x31) (by simp [Instr.worksFor]) h
  | seek d => exact State.runCommand_effect (b := 0x70) (rec := s.record d 0x70) (by simp [Instr.worksFor]) h
  | initializeDriveParameters d => exact State.runCommand_effect (b := 0x91) (rec := s.record d 0x91) (by simp [Instr.worksFor]) h
  | readMultiple d => exact State.runCommand_effect (b := 0xC4) (rec := s.record d 0xC4) (by simp [Instr.worksFor]) h
  | writeMultiple d => exact State.runCommand_effect (b := 0xC5) (rec := s.record d 0xC5) (by simp [Instr.worksFor]) h
  | setMultipleMode d => exact State.runCommand_effect (b := 0xC6) (rec := s.record d 0xC6) (by simp [Instr.worksFor]) h
  | identifyDrive d => exact State.runCommand_effect (b := 0xEC) (rec := s.record d 0xEC) (by simp [Instr.worksFor]) h
  | setFeatures d => exact State.runCommand_effect (b := 0xEF) (rec := s.record d 0xEF) (by simp [Instr.worksFor]) h
  | ataUnknownCommand d opcode => exact State.runCommand_effect (b := 0x00) (rec := s.record d opcode) (by simp [Instr.worksFor]) h
  | workerStop d => exact State.workerStep_effect (by simp [Instr.worksFor]) h
  | workerReset d => exact State.workerStep_effect (by simp [Instr.worksFor]) h
  | workerCommand d => exact State.workerStep_effect (by simp [Instr.worksFor]) h
  | workerContinueRead d => exact State.workerStep_effect (by simp [Instr.worksFor]) h
  | workerContinueWrite d => exact State.workerStep_effect (by simp [Instr.worksFor]) h
  | muxForward k acc => exact execMuxForward_effect h
  | muxDriveHeadW b => exact State.muxDriveHead_effect h
  | muxDeviceControlW b => cases h; exact State.muxDeviceControl_effect s b
  | muxAltStatusR => cases h; exact .quiet (s.answer_quiet _ _)
  | muxNotify d => cases h; exact State.updateMux_effect s
  | xtDataLowR o => exact State.xtRead_effect h
  | xtDataHighR o => exact State.xtRead_effect h
  | xtDataHighW o b => exact State.xtWrite_effect h
  | xtDataLowW o b => exact State.xtWrite_effect h
  | xtReg o acc => exact State.xtAccess_effect h
  | xtControl o acc => exact State.xtAccess_effect h
  | xtUnmapped o acc => exact State.xtAccess_effect h

end Sys2Proof.Machine
end

