-- ==== Sys2Proof/Laws/Events.lean ====
section
/-! SUPPORT. What a step and an event can do, said once: a step begins, takes an event of its agent and performs it; an
event is a row of the table or one of the seven events that are none (word calls, destruction, construction). -/
namespace Sys2Proof.Machine

/-! ## Events -/

/-- Decoding reads the PICs, the devices, the XTIDE map and the widths of the spaces only. -/
theorem State.ctx_congr {s t : State} (hp : t.pics = s.pics) (hd : ∀ d, t.device d = s.device d)
    (hs : ∀ sp, t.dispatcher sp = s.dispatcher sp) (hx : t.xtMap = s.xtMap) (e : Event) : t.ctx e = s.ctx e := by
  unfold State.ctx
  split <;> simp [hp, hd, hs, State.xtAt, hx]

/-- An event that decodes to a row is run as that row. -/
theorem State.runEvent_row {s : State} {e : Event} {i : Instr} (h : decode (s.ctx e) e = .row i) :
    s.runEvent e = exec i s := by
  have hr : s.runRow e = exec i s := by unfold State.runRow; rw [h]
  rw [← hr]
  cases e <;> first | rfl | (simp [decode] at h)

/-- What an event that is no row of the table does. -/
inductive EventEffect (s : State) : Event → State → Prop
  | wordWrite (m w x : Nat) (mask data : Quad) (b : HostBlock) : s.hostBlocks[m]? = some b →
      EventEffect s (.wordWrite m w x mask data)
        (s.setHostBlocks (s.hostBlocks.set m (b.writeWord w { address := x, mask := mask, data := data })))
  | wordRead (m w x : Nat) (mask : Quad) (b : HostBlock) : s.hostBlocks[m]? = some b →
      EventEffect s (.wordRead m w x mask) (s.answer (b.readLanes w x mask) [])
  | teardown (d : Drive) : EventEffect s (.teardown d) (s.teardown d)
  | join (d : Drive) : EventEffect s (.join d) (s.joinWorker d)
  | device (d : Drive) : s.workerEnded d = true →
      EventEffect s (.constructDevice d) (s.commitDevice d (s.device d).rebuilt)
  | outermostPic : EventEffect s (.constructPic none) (s.addPic s.pics)
  | chainedPic (l : LineRef) (q : Pic) : s.pics[l.pic]? = some q → q.secondary.get l.line = none →
      EventEffect s (.constructPic (some l)) (s.addPic (s.pics.set l.pic (q.chain l.line s.pics.length)))
  | memory (size permissions word : Nat) : 0 < size → sizeOk word = true →
      EventEffect s (.constructMemory size permissions word)
        ((s.setHostBlocks (s.hostBlocks ++ [HostBlock.constructed size permissions word])).answerHandle
          s.hostBlocks.length)

/-- An event that gives a next state is a row, or it is none and has one of the listed effects. -/
theorem State.runEvent_cases {s t : State} {e : Event} (h : s.runEvent e = .next t) :
    (∃ i, decode (s.ctx e) e = .row i ∧ exec i s = .next t) ∨ EventEffect s e t := by
  have hrow : s.runRow e = .next t → ∃ i, decode (s.ctx e) e = .row i ∧ exec i s = .next t := by
    intro h
    unfold State.runRow at h
    cases hd : decode (s.ctx e) e with
    | row i => rw [hd] at h; exact ⟨i, rfl, h⟩
    | rejected r => rw [hd] at h; cases h
  cases e with
  | wordWrite m w x mask data =>
    obtain ⟨b, hb, h⟩ := State.withBlock_next h
    cases h; exact .inr (.wordWrite m w x mask data b hb)
  | wordRead m w x mask =>
    obtain ⟨b, hb, h⟩ := State.withBlock_next h
    cases h; exact .inr (.wordRead m w x mask b hb)
  | teardown d => cases h; exact .inr (.teardown d)
  | join d => cases h; exact .inr (.join d)
  | constructDevice d =>
    simp only [State.runEvent, State.constructDevice] at h
    split at h
    · rename_i hs; cases h; exact .inr (.device d hs)
    · cases h
  | constructPic wire =>
    cases wire with
    | none => cases h; exact .inr .outermostPic
    | some l =>
      obtain ⟨q, hq, h⟩ := State.withPic_next h
      split at h
      · cases h
      · rename_i hn
        cases h
        exact .inr (.chainedPic l q hq (by simpa using hn))
  | constructMemory size permissions word =>
    simp only [State.runEvent, State.constructMemory] at h
    split at h
    · rename_i hs; cases h; exact .inr (.memory size permissions word hs.1 hs.2)
    · cases h
  | _ => exact .inl (hrow h)

/-- Waiting for a worker changes nothing but what the waiting agent does next. -/
theorem State.joinWorker_quiet (s : State) (d : Drive) : QuietFrame s (s.joinWorker d) := by
  unfold State.joinWorker
  split
  · exact .refl s
  · exact s.pushFollow_quiet _

/-- An event that is no row of the table leaves the schedule, the parameters and every other agent as they are. -/
theorem EventEffect.agents {s t : State} {e : Event} (h : EventEffect s e t) : SameAgents s t := by
  cases h with
  | join d => exact (s.joinWorker_quiet d).agents
  | device d _ => exact (State.commitDevice_spec (.refl s) (.refl s) (.refl s)).2.2.2.2.2.2
  | wordRead m w x mask b _ => exact (s.answer_quiet _ _).agents
  | _ => exact ⟨by simp, by simp, by simp, by simp, by simp, fun a ha => by simp [ha], by simp⟩

/-! ## The step -/

/-- What comes before the event in a step: nothing changes but the agent's own events and reply. -/
structure Taken (s u : State) : Prop where
  pics : u.pics = s.pics
  sink : u.sink = s.sink
  dispatchers : ∀ sp, u.dispatcher sp = s.dispatcher sp
  registrations : u.registrations = s.registrations
  hostBlocks : u.hostBlocks = s.hostBlocks
  devices : ∀ d, u.device d = s.device d
  mux : u.mux = s.mux
  latch : u.latch = s.latch
  xtMap : u.xtMap = s.xtMap
  wiring : u.wiring = s.wiring
  active : u.active = s.nextAgent
  schedule : u.schedule = s.schedule.tail
  clock : u.clock = s.clock + 1
  others : ∀ a, a ≠ s.nextAgent → u.thread a = s.thread a

theorem Taken.beginStep (s : State) : Taken s (s.beginStep s.nextAgent) := by constructor <;> simp

theorem Taken.setThread (s : State) (t : Thread) : Taken s ((s.beginStep s.nextAgent).setThread s.nextAgent t) := by
  constructor <;> intros <;> simp_all

/-- Taking an event changes nothing but the agent's own events and reply. -/
theorem State.takeEvent_taken {s u : State} {e : Event} (h : s.nextEvent = some (e, u)) : Taken s u := by
  unfold State.nextEvent State.takeEvent at h
  split at h
  · cases h; exact Taken.setThread s _
  · unfold State.newOperation at h
    split at h
    · simp only [Option.map_eq_some_iff, Prod.mk.injEq] at h
      obtain ⟨k, -, -, rfl⟩ := h
      exact Taken.beginStep s
    · simp only [Option.map_eq_some_iff, Prod.mk.injEq] at h
      obtain ⟨l, -, -, rfl⟩ := h
      exact Taken.setThread s _
    · split at h
      · cases h; exact Taken.setThread s _
      · cases h

/-- A step that gives a next state: the agent waits, or it performs the event it takes. -/
theorem step_cases {s t : State} (h : step s = .next t) :
    (s.nextEvent = none ∧ t = s.beginStep s.nextAgent) ∨
      ∃ e u, s.nextEvent = some (e, u) ∧ u.runEvent e = .next t := by
  unfold step at h
  cases hte : (s.beginStep s.nextAgent).takeEvent with
  | none => rw [hte] at h; cases h; exact .inl ⟨hte, rfl⟩
  | some p => rw [hte] at h; exact .inr ⟨p.1, p.2, hte, h⟩

/-- What holds through taking an event, every row and every other event holds through every step. -/
theorem step_keeps {P : State → Prop} (htaken : ∀ s u, Taken s u → P s → P u)
    (hrow : ∀ i s t, Effect i s t → P s → P t) (hevent : ∀ e s t, EventEffect s e t → P s → P t) :
    ∀ s t, P s → step s = .next t → P t := by
  intro s t hs h
  rcases step_cases h with ⟨-, rfl⟩ | ⟨e, u, hu, h⟩
  · exact htaken s _ (.beginStep s) hs
  · have hp := htaken s u (State.takeEvent_taken hu) hs
    rcases State.runEvent_cases h with ⟨i, -, h⟩ | h
    · exact hrow i u t (exec_effect h) hp
    · exact hevent e u t h hp

end Sys2Proof.Machine
end

