-- ==== Sys2Proof/Laws/Memory.lean ====
section
/-! SUPPORT. The laws of the byte memories: what a read finds after a write, and that every operation keeps the canonical
form. -/
namespace Sys2Proof.Machine

/-! ## Looking a cell up -/

theorem findCell_append (l m : List Host.Cell) (a : Nat) :
    findCell (l ++ m) a = (findCell l a).or (findCell m a) := by
  induction l with
  | nil => simp [findCell]
  | cons c l ih =>
    obtain ⟨k, b⟩ := c
    by_cases h : k = a <;> simp [findCell, h, ih]

theorem findCell_filter_key (l : List Host.Cell) (p : Nat → Bool) (a : Nat) :
    findCell (l.filter (fun c => p c.1)) a = if p a then findCell l a else none := by
  induction l with
  | nil => simp [findCell]
  | cons c l ih =>
    obtain ⟨k, b⟩ := c
    by_cases hp : p k = true
    · by_cases h : k = a
      · subst h; simp [hp, findCell]
      · simp [hp, findCell, h, ih]
    · by_cases h : k = a
      · subst h; simp [hp, ih]
      · simp [hp, findCell, h, ih]

theorem findCell_eq_none_of_forall_ne {l : List Host.Cell} {a : Nat} (h : ∀ c ∈ l, c.1 ≠ a) :
    findCell l a = none := by
  induction l with
  | nil => rfl
  | cons c l ih =>
    obtain ⟨k, b⟩ := c
    have hk : k ≠ a := h (k, b) (by simp)
    simp [findCell, hk, ih (fun c hc => h c (by simp [hc]))]

/-- What is found in cells with a stretch replaced: in the stretch the new cells, elsewhere the old ones. -/
theorem findCell_replaceCells {m new : List Host.Cell} {lo hi : Nat} (hnew : ∀ c ∈ new, lo ≤ c.1 ∧ c.1 < hi) (a : Nat) :
    findCell (replaceCells m lo hi new) a = if lo ≤ a ∧ a < hi then findCell new a else findCell m a := by
  have h1 := findCell_filter_key m (fun k => decide (k < lo)) a
  have h2 := findCell_filter_key m (fun k => decide (hi ≤ k)) a
  simp only [replaceCells, findCell_append, h1, h2, decide_eq_true_eq]
  by_cases hlo : a < lo
  · have : findCell new a = none := findCell_eq_none_of_forall_ne (fun c hc => by have := hnew c hc; omega)
    have h3 : ¬(lo ≤ a ∧ a < hi) := by omega
    simp only [hlo, if_true, h3, if_false, this, Option.none_or]
    cases hm : findCell m a <;> simp
  · by_cases hhi : hi ≤ a
    · have : findCell new a = none := findCell_eq_none_of_forall_ne (fun c hc => by have := hnew c hc; omega)
      have h3 : ¬(lo ≤ a ∧ a < hi) := by omega
      simp [hlo, hhi, this, h3]
    · have h3 : lo ≤ a ∧ a < hi := by omega
      simp [hlo, hhi, h3]

theorem cellsAt_keys {bytes : List Byte} {a : Nat} : ∀ c ∈ cellsAt a bytes, a ≤ c.1 ∧ c.1 < a + bytes.length := by
  induction bytes generalizing a with
  | nil => simp [cellsAt]
  | cons b bytes ih =>
    intro c hc
    simp only [cellsAt, List.mem_cons] at hc
    rcases hc with rfl | hc
    · simp
    · have := ih c hc
      simp only [List.length_cons]
      omega

theorem findCell_cellsAt (bytes : List Byte) (a x : Nat) :
    findCell (cellsAt a bytes) x = if a ≤ x then bytes[x - a]? else none := by
  induction bytes generalizing a with
  | nil => simp [cellsAt, findCell]
  | cons b bytes ih =>
    simp only [cellsAt, findCell, ih]
    rcases Nat.lt_trichotomy a x with h | h | h
    · have h1 : a ≠ x := by omega
      have h2 : a + 1 ≤ x := by omega
      have h3 : x - a = (x - (a + 1)) + 1 := by omega
      simp [h1, h2, Nat.le_of_lt h, h3]
    · subst h; simp
    · have h1 : a ≠ x := by omega
      have h2 : ¬a + 1 ≤ x := by omega
      have h3 : ¬a ≤ x := by omega
      simp [h1, h2, h3]

theorem findCell_filter_byte (l : List Host.Cell) (hl : risingCells l) (b : Byte) (a : Nat) :
    (findCell (l.filter (fun c => c.2 != b)) a).getD b = (findCell l a).getD b := by
  induction l with
  | nil => rfl
  | cons c l ih =>
    obtain ⟨k, v⟩ := c
    have hl' := List.pairwise_cons.1 hl
    by_cases hv : v = b
    · by_cases hk : k = a
      · have hnone : findCell (l.filter (fun c => c.2 != b)) a = none :=
          findCell_eq_none_of_forall_ne (fun c hc => by
            have := hl'.1 c (List.mem_filter.1 hc).1
            simp only at this
            omega)
        subst hv
        simp only [List.filter_cons, findCell, hk, if_true]
        simp [hnone]
      · simp [hv, findCell, hk, ih hl'.2]
    · by_cases hk : k = a
      · simp [hv, findCell, hk]
      · simp [hv, findCell, hk, ih hl'.2]

/-! ## The canonical form -/

theorem risingCells_filter {m : List Host.Cell} (p : Host.Cell → Bool) (h : risingCells m) : risingCells (m.filter p) :=
  h.filter p

theorem risingCells_cellsAt (bytes : List Byte) (a : Nat) : risingCells (cellsAt a bytes) := by
  induction bytes generalizing a with
  | nil => exact List.Pairwise.nil
  | cons b bytes ih =>
    refine List.pairwise_cons.2 ⟨fun c hc => ?_, ih (a + 1)⟩
    have := cellsAt_keys c hc
    simp only
    omega

theorem risingCells_replaceCells {m new : List Host.Cell} {lo hi : Nat} (hle : lo ≤ hi) (hm : risingCells m)
    (hr : risingCells new) (hnew : ∀ c ∈ new, lo ≤ c.1 ∧ c.1 < hi) : risingCells (replaceCells m lo hi new) := by
  refine List.pairwise_append.2 ⟨risingCells_filter _ hm, List.pairwise_append.2 ⟨hr, risingCells_filter _ hm, ?_⟩, ?_⟩
  · intro c hc d hd
    have h1 := hnew c hc
    have h2 := (List.mem_filter.1 hd).2
    simp only [decide_eq_true_eq] at h2
    omega
  · intro c hc d hd
    have h1 := (List.mem_filter.1 hc).2
    simp only [decide_eq_true_eq] at h1
    rcases List.mem_append.1 hd with hd | hd
    · have := hnew d hd
      omega
    · have h2 := (List.mem_filter.1 hd).2
      simp only [decide_eq_true_eq] at h2
      omega

/-- A store of bytes keeps the canonical form. -/
theorem Memory.wf_writeBytes {m : Memory} (h : Memory.wf m) (a : Nat) (bytes : List Byte) :
    Memory.wf (Memory.writeBytes m a bytes) := by
  refine ⟨risingCells_replaceCells (Nat.le_add_right _ _) h.1 (risingCells_filter _ (risingCells_cellsAt bytes a))
    (fun c hc => cellsAt_keys c (List.mem_filter.1 hc).1), fun c hc => ?_⟩
  simp only [Memory.writeBytes, replaceCells, List.mem_append] at hc
  rcases hc with hc | hc | hc
  · exact h.2 c (List.mem_filter.1 hc).1
  · simpa using (List.mem_filter.1 hc).2
  · exact h.2 c (List.mem_filter.1 hc).1

theorem Memory.wf_write {m : Memory} (h : Memory.wf m) (a : Nat) (b : Byte) : Memory.wf (Memory.write m a b) :=
  Memory.wf_writeBytes h a [b]

/-- Filling the buffer keeps its addresses rising. -/
theorem risingCells_bufferPut {buf : List Host.Cell} (h : risingCells buf) (i : Nat) (bytes : List Byte) :
    risingCells (bufferPut buf i bytes) :=
  risingCells_replaceCells (Nat.le_add_right _ _) h (risingCells_cellsAt _ i) cellsAt_keys

@[simp] theorem length_bufferKept (i : Nat) (bytes : List Byte) :
    (bufferKept i bytes).length = min (bufferCapacity - i) bytes.length := by
  simp [bufferKept]

/-- Filling the buffer puts nothing beyond its capacity. -/
theorem bufferPut_keys {buf : List Host.Cell} (h : ∀ c ∈ buf, c.1 < bufferCapacity) (i : Nat) (bytes : List Byte) :
    ∀ c ∈ bufferPut buf i bytes, c.1 < bufferCapacity := by
  intro c hc
  simp only [bufferPut, replaceCells, List.mem_append] at hc
  rcases hc with hc | hc | hc
  · exact h c (List.mem_filter.1 hc).1
  · have := cellsAt_keys c hc
    rw [length_bufferKept] at this
    omega
  · exact h c (List.mem_filter.1 hc).1

/-! ## Reads after writes -/

/-- A byte reads as what was last stored there, every other byte as before. -/
theorem Memory.read_writeBytes (m : Memory) (a x : Nat) (bytes : List Byte) :
    Memory.read (Memory.writeBytes m a bytes) x =
      if a ≤ x ∧ x < a + bytes.length then (bytes[x - a]?).getD Memory.blank else Memory.read m x := by
  simp only [Memory.read, Memory.writeBytes,
    findCell_replaceCells (fun c hc => cellsAt_keys c (List.mem_filter.1 hc).1)]
  by_cases h : a ≤ x ∧ x < a + bytes.length
  · simp only [h, and_self, if_true, findCell_filter_byte _ (risingCells_cellsAt bytes a), findCell_cellsAt]
  · simp only [h, if_false]

@[simp] theorem Memory.read_write (m : Memory) (a x : Nat) (b : Byte) :
    Memory.read (Memory.write m a b) x = if x = a then b else Memory.read m x := by
  simp only [Memory.write, Memory.read_writeBytes, List.length_singleton]
  by_cases h : x = a
  · subst h; simp
  · have : ¬(a ≤ x ∧ x < a + 1) := by omega
    rw [if_neg this, if_neg h]

/-- A byte of the buffer is what was last put there, within the capacity; every other byte is as before. -/
theorem bufferByte_bufferPut (d : Drive) (buf : List Host.Cell) (i x : Nat) (bytes : List Byte) :
    bufferByte d (bufferPut buf i bytes) x =
      if i ≤ x ∧ x < i + bytes.length ∧ x < bufferCapacity then (bytes[x - i]?).getD (Config.unfilledBuffer d x)
      else bufferByte d buf x := by
  simp only [bufferByte, bufferPut]
  rw [findCell_replaceCells cellsAt_keys, findCell_cellsAt, length_bufferKept]
  by_cases h : i ≤ x ∧ x < i + bytes.length ∧ x < bufferCapacity
  · have h1 : i ≤ x ∧ x < i + min (bufferCapacity - i) bytes.length := by omega
    have h2 : x - i < bufferCapacity - i := by omega
    rw [if_pos h1, if_pos h1.1, if_pos h, bufferKept, List.getElem?_take_of_lt h2]
  · have h1 : ¬(i ≤ x ∧ x < i + min (bufferCapacity - i) bytes.length) := by omega
    rw [if_neg h1, if_neg h]

@[simp] theorem Memory.length_readBytes (m : Memory) (a n : Nat) : (Memory.readBytes m a n).length = n := by
  induction n generalizing a with
  | zero => rfl
  | succ n ih => simp [Memory.readBytes, ih]

theorem Memory.getElem?_readBytes (m : Memory) (a n k : Nat) :
    (Memory.readBytes m a n)[k]? = if k < n then some (Memory.read m (a + k)) else none := by
  induction n generalizing a k with
  | zero => simp [Memory.readBytes]
  | succ n ih =>
    cases k with
    | zero => simp [Memory.readBytes]
    | succ k => simp [Memory.readBytes, ih, Nat.add_assoc, Nat.add_comm 1 k]

@[simp] theorem length_bufferBytes (d : Drive) (buf : List Host.Cell) (i n : Nat) :
    (bufferBytes d buf i n).length = n := by
  induction n generalizing i with
  | zero => rfl
  | succ n ih => simp [bufferBytes, ih]

theorem getElem?_bufferBytes (d : Drive) (buf : List Host.Cell) (i n k : Nat) :
    (bufferBytes d buf i n)[k]? = if k < n then some (bufferByte d buf (i + k)) else none := by
  induction n generalizing i k with
  | zero => simp [bufferBytes]
  | succ n ih =>
    cases k with
    | zero => simp [bufferBytes]
    | succ k => simp [bufferBytes, ih, Nat.add_assoc, Nat.add_comm 1 k]

end Sys2Proof.Machine
end

