-- ==== Sys2Proof/Tests/Slice0.lean ====
section
/-! SUPPORT. The model's own tests. Expected results come from spec/95_test_vectors.md (the vector is named in the
docstring) or are worked out by hand from the rule that is named. The last section shows, for each statement of
Sys2Proof/Certificates/Slice0/Obligations.lean that has hypotheses, a state and operands that meet them. -/

namespace Sys2Proof.Tests
open Sys2Proof Sys2Proof.Machine

/-! ## Small states -/

/-- P1 of spec/95_test_vectors.md: a PIC after the handshake 0x13, 0x08, 0x01. -/
def p1 : Pic :=
  { Pic.constructed (Vector.replicate 8 none) with icw1 := 0x13, icw2 := 0x08, icw4 := 0x01 }

/-- P1 with PIC 1 chained on line 2, and that line requested. -/
def cascading : Pic :=
  { p1 with irr := 0x04, secondary := #v[none, none, some 1, none, none, none, none, none], out := true }

/-- The machine after reset with this PIC as PIC 0. -/
def picState (q : Pic) : State := { State.reset with pics := [q] }

/-- A0 of spec/95_test_vectors.md. -/
def a0 : AtaDevice := AtaDevice.constructed Config.exampleDisk

/-- The machine after reset with this device as the master. -/
def ataState (dev : AtaDevice) : State := { State.reset with master := dev }

/-- A device with these registers changed from A0: sector count, sector number, cylinder low, cylinder high,
drive/head. -/
def addressed (count sector cylLow cylHigh head : Byte) : AtaDevice :=
  { a0 with
    commandRequested := true,
    regs := { RegFile.powerUp with
      sectorCount := count, sectorNumber := sector, cylinderLow := cylLow, cylinderHigh := cylHigh, driveHead := head } }

/-- A device in a read transfer of one sector whose first bytes are 0x34 and 0x12. -/
def reading : AtaDevice :=
  { a0 with
    regs := { RegFile.powerUp with status := 0x58 }, xfer := .pioRead, cursor := 0, length := 512,
    buffer := [(0, 0x34), (1, 0x12), (510, 0x55), (511, 0xAA)], intrq := true }

/-- A device in a write transfer of one sector. -/
def writing : AtaDevice :=
  { a0 with
    regs := { RegFile.powerUp with status := 0x58 }, xfer := .pioWrite, cursor := 510, length := 512,
    op := some { kind := .write, lba := 10, remaining := 2, chunk := 1 } }

/-- A busy device. -/
def busyDevice : AtaDevice := { a0 with regs := { RegFile.powerUp with status := 0xD0 } }

/-- Table T of spec/95_test_vectors.md part 2.2, with PIC 0 as A and its ELCR as B. -/
def rangeA : AddressRange := { beginAddress := 0, endAddress := 0x1000, offset := 0, handler := .port (.pic 0) }
/-- See `rangeA`. -/
def rangeB : AddressRange := { beginAddress := 0x1000, endAddress := 0x2000, offset := 0, handler := .port (.elcr 0) }
/-- The machine after reset with table T as its I/O dispatcher. -/
def busState : State :=
  { State.reset with
    io := { Dispatcher.constructed 64 with ranges := [rangeA, rangeB] },
    registrations := [{ space := .io, range := rangeA, attached := true },
      { space := .io, range := rangeB, attached := false }] }

/-- The state an outcome gives, if it is a next state. -/
def nextOf (r : Result) : Option State :=
  match r with
  | .next t => some t
  | _ => none

/-- PIC 0 after an instruction. -/
def picAfter (i : Instr) (q : Pic) : Option Pic := (nextOf (exec i (picState q))).bind (·.pics.head?)

/-- What the agent is answered by an instruction. -/
def replyOf (i : Instr) (s : State) : Option Reply := (nextOf (exec i s)).map (fun t => (t.thread t.active).reply)

/-- What the agent goes on with after an instruction. -/
def followOf (i : Instr) (s : State) : Option (List Event) := (nextOf (exec i s)).map (fun t => (t.thread t.active).follow)

/-- The master after an instruction. -/
def masterAfter (i : Instr) (dev : AtaDevice) : Option AtaDevice := (nextOf (exec i (ataState dev))).map (·.master)

/-- The refusal of an outcome. -/
def refusalOf (r : Result) : Option Refusal :=
  match r with
  | .refused x => some x
  | _ => none

/-- The fault of an outcome. -/
def faultOf (r : Result) : Option Fault :=
  match r with
  | .fault x => some x
  | _ => none

/-! ## Ill-formed operands are refused -/

theorem test_wf_icw1_marker : (Instr.icw1 0 0x03).wellFormed = false := by decide
theorem test_wf_ocw2_eoi : (Instr.ocw2Eoi 0 0x40).wellFormed = false := by decide
theorem test_wf_ocw2_seoi : (Instr.ocw2Seoi 0 0x20).wellFormed = false := by decide
theorem test_wf_ocw2_nop_sl : (Instr.ocw2NopSl 0 0x20).wellFormed = false := by decide
theorem test_wf_ocw2_nop0 : (Instr.ocw2Nop0 0 0x20).wellFormed = false := by decide
theorem test_wf_ocw2_rotate : (Instr.ocw2Rotate 0 0x20).wellFormed = false := by decide
theorem test_wf_ocw3 : (Instr.ocw3 0 0x0C).wellFormed = false := by decide
theorem test_wf_ocw3_poll : (Instr.ocw3Poll 0 0x08).wellFormed = false := by decide
theorem test_wf_ocw3_smm : (Instr.ocw3Smm 0 0x08).wellFormed = false := by decide
theorem test_wf_command_write : (Instr.picCmdWriteUnspec 0 0x10).wellFormed = false := by decide
theorem test_wf_pic_offset : (Instr.picBadPort (.pic 0) 1 .read).wellFormed = false := by decide
theorem test_wf_elcr_offset : (Instr.picBadPort (.elcr 0) 0 .read).wellFormed = false := by decide
theorem test_wf_xtide_offset : (Instr.picBadPort .xtide 9 .read).wellFormed = false := by decide
theorem test_wf_pic_init : (Instr.picInit 0 0x03 0x08 0x00 0x01).wellFormed = false := by decide
theorem test_wf_split_size : (Instr.splitWrite (.memory 0) 0 3 0 1).wellFormed = false := by decide
theorem test_wf_split_word : (Instr.splitWrite (.memory 0) 0 2 0 3).wellFormed = false := by decide
theorem test_wf_split_port_word : (Instr.splitRead (.port (.pic 0)) 0 2 2).wellFormed = false := by decide
theorem test_wf_split_data : (Instr.splitWrite (.memory 0) 0 1 0x100 1).wellFormed = false := by decide
theorem test_wf_reg_address : (Instr.reg .io 0 (2 ^ 64) (.memory 0) 0).wellFormed = false := by decide
theorem test_wf_resolve_address : (Instr.resolve .io (2 ^ 64 - 7)).wellFormed = false := by decide
theorem test_wf_in_size : (Instr.inPort .io 0 16).wellFormed = false := by decide
theorem test_wf_in_address : (Instr.inPort .mem (2 ^ 64) 1).wellFormed = false := by decide
theorem test_wf_out_data : (Instr.outPort .io 0 2 0x10000).wellFormed = false := by decide
theorem test_wf_last_datum : (Instr.inPort .mem (2 ^ 64 - 8) 8).wellFormed = false := by decide
theorem test_wf_establish : (Instr.establishMappings .mem 0 0 (2 ^ 64)).wellFormed = false := by decide
theorem test_wf_gated_index : (Instr.ataGatedW .master 7 0).wellFormed = false := by decide
theorem test_wf_busy_index : (Instr.ataBusyR .master 7).wellFormed = false := by decide
theorem test_wf_bad_command_index : (Instr.ataBadIndex .master .command 7 .read).wellFormed = false := by decide
theorem test_wf_bad_control_index : (Instr.ataBadIndex .master .control 6 .read).wellFormed = false := by decide
theorem test_wf_unknown_opcode : (Instr.ataUnknownCommand .master 0xEC).wellFormed = false := by decide
theorem test_wf_mux_data : (Instr.muxForward 2 (.write 0x100)).wellFormed = false := by decide
theorem test_wf_mux_drive_head : (Instr.muxForward 6 (.write 0x10)).wellFormed = false := by decide

/-! ## Decoding: one access of every row, written out from R90 to R95, R101, R102, R106, R110, R111, R116, R123 -/

theorem test_decode_pic_command_write :
    decode {} (.portWrite (.pic 0) 0 0x13) = .row (.icw1 0 0x13) ∧
    decode { fsm := .poll } (.portWrite (.pic 0) 0 0x18) = .row (.icw1 0 0x18) ∧
    decode {} (.portWrite (.pic 0) 0 0x27) = .row (.ocw2Eoi 0 0x27) ∧
    decode {} (.portWrite (.pic 0) 0 0x65) = .row (.ocw2Seoi 0 0x65) ∧
    decode {} (.portWrite (.pic 0) 0 0x47) = .row (.ocw2NopSl 0 0x47) ∧
    decode {} (.portWrite (.pic 0) 0 0x00) = .row (.ocw2Nop0 0 0x00) ∧
    decode {} (.portWrite (.pic 0) 0 0xC3) = .row (.ocw2Rotate 0 0xC3) ∧
    decode {} (.portWrite (.pic 0) 0 0x88) = .row (.ocw3 0 0x88) ∧
    decode {} (.portWrite (.pic 0) 0 0x0C) = .row (.ocw3Poll 0 0x0C) ∧
    decode {} (.portWrite (.pic 0) 0 0x68) = .row (.ocw3Smm 0 0x68) ∧
    decode { fsm := .waitingForIcw2 } (.portWrite (.pic 0) 0 0x20) = .row (.picCmdWriteUnspec 0 0x20) := by decide

theorem test_decode_pic_data_and_reads :
    decode { fsm := .waitingForIcw2 } (.portWrite (.pic 1) 1 0x70) = .row (.icw2 1 0x70) ∧
    decode { fsm := .waitingForIcw3 } (.portWrite (.pic 1) 1 0x04) = .row (.icw3 1 0x04) ∧
    decode { fsm := .waitingForIcw4 } (.portWrite (.pic 1) 1 0x03) = .row (.icw4 1 0x03) ∧
    decode {} (.portWrite (.pic 1) 1 0xFB) = .row (.ocw1 1 0xFB) ∧
    decode { fsm := .poll } (.portWrite (.pic 1) 1 0xFF) = .row (.picDataWriteUnspec 1 0xFF) ∧
    decode { fsm := .poll } (.portRead (.pic 1) 1) = .row (.pollRead 1) ∧
    decode { fsm := .waitingForIcw2 } (.portRead (.pic 1) 1) = .row (.maskRead 1) ∧
    decode {} (.portRead (.pic 1) 0) = .row (.irrIsrRead 1) ∧
    decode { fsm := .poll } (.portRead (.pic 1) 0) = .row (.picCmdReadUnspec 1) ∧
    decode {} (.portRead (.pic 1) 2) = .row (.picBadPort (.pic 1) 2 .read) ∧
    decode {} (.portWrite (.elcr 1) 0 0x20) = .row (.elcrWrite 1 0x20) ∧
    decode {} (.portRead (.elcr 1) 0) = .row (.elcrRead 1) ∧
    decode {} (.portWrite (.elcr 1) 1 0x20) = .row (.picBadPort (.elcr 1) 1 (.write 0x20)) := by decide

theorem test_decode_pic_calls :
    decode { level := true } (.line 0 5 true) = .row (.lineLevel 0 5 true) ∧
    decode {} (.line 0 5 false) = .row (.lineEdge 0 5 false) ∧
    decode { ack := .own } (.inta 0) = .row (.inta 0) ∧
    decode { ack := .nothing } (.inta 0) = .row (.intaSpurious 0) ∧
    decode { ack := .cascade } (.inta 0) = .row (.intaCascade 0) ∧
    decode {} (.picInit 0 0x13 0x08 0x00 0x01) = .row (.picInit 0 0x13 0x08 0x00 0x01) ∧
    decode {} (.picInit 0 0x03 0x08 0x00 0x01) = .rejected .notAnIcw1 ∧
    decode {} (.eoi 0) = .row (.eoi 0) ∧ decode {} (.seoi 0 3) = .row (.seoi 0 3) ∧
    decode {} (.poll 0) = .row (.poll 0) ∧ decode {} (.mask 0 0xFF) = .row (.mask 0 0xFF) := by decide

theorem test_decode_dispatcher :
    decode {} (.splitWrite (.memory 0) 6 4 0x44332211 4) = .row (.splitWrite (.memory 0) 6 4 0x44332211 4) ∧
    decode {} (.splitRead (.memory 0) 6 4 4) = .row (.splitRead (.memory 0) 6 4 4) ∧
    decode {} (.splitRead (.memory 0) 6 3 4) = .rejected .sizeNotAllowed ∧
    decode {} (.splitRead (.port .xtide) 6 4 4) = .rejected .wordSizeNotAllowed ∧
    decode {} (.reg .io 0x20 0x22 (.port (.pic 0)) 0) = .row (.reg .io 0x20 0x22 (.port (.pic 0)) 0) ∧
    decode {} (.release 3 .move) = .row (.release 3 .move) ∧
    decode {} (.unreg .io rangeA) = .row (.unreg .io rangeA) ∧
    decode {} (.resolve .mem 0xFFF) = .row (.resolve .mem 0xFFF) ∧
    decode {} (.resolve .mem (2 ^ 64)) = .rejected .addressTooLarge ∧
    decode { addrBits := 16 } (.resolve .io 0x10000) = .rejected .addressTooLarge ∧
    decode { addrBits := 16 } (.reg .io 0xFFF0 0x10000 (.port .xtide) 0) = .row (.reg .io 0xFFF0 0x10000 (.port .xtide) 0) ∧
    decode { addrBits := 16 } (.reg .io 0xFFF0 0x10001 (.port .xtide) 0) = .rejected .addressTooLarge ∧
    decode {} (.busRead .io 0x21 1) = .row (.inPort .io 0x21 1) ∧
    decode {} (.busWrite .io 0x20 2 0x0813) = .row (.outPort .io 0x20 2 0x0813) ∧
    decode {} (.busWrite .io 0x20 1 0x0813) = .rejected .dataTooWide ∧
    decode {} (.establishMappings .mem 1 0 0x100000) = .row (.establishMappings .mem 1 0 0x100000) ∧
    decode {} (.removeMappings .mem) = .row (.removeMappings .mem) := by decide

theorem test_decode_ata_writes :
    decode {} (.ataWrite .slave 1 0x01) = .row (.ataFeatureW .slave 0x01) ∧
    decode {} (.ataWrite .slave 2 0x05) = .row (.ataSectorCountW .slave 0x05) ∧
    decode {} (.ataWrite .slave 3 0x04) = .row (.ataSectorNumberW .slave 0x04) ∧
    decode {} (.ataWrite .slave 4 0x03) = .row (.ataCylinderLowW .slave 0x03) ∧
    decode {} (.ataWrite .slave 5 0x02) = .row (.ataCylinderHighW .slave 0x02) ∧
    decode {} (.ataWrite .slave 6 0xE1) = .row (.ataDriveHeadW .slave 0xE1) ∧
    decode { busy := true } (.ataWrite .slave 2 0x09) = .row (.ataGatedW .slave 2 0x09) ∧
    decode { busy := true } (.ataWrite .slave 7 0x20) = .row (.ataCommandW .slave 0x20) ∧
    decode { xfer := .pioWrite } (.ataWrite .slave 0 0xAA55) = .row (.ataDataW .slave 0xAA55) ∧
    decode { xfer := .pioRead } (.ataWrite .slave 0 0x1234) = .row (.ataDataWIdle .slave 0x1234) ∧
    decode {} (.ataWrite .slave 2 0x109) = .rejected .dataTooWide ∧
    decode {} (.ataWrite .slave 9 0x109) = .row (.ataBadIndex .slave .command 9 (.write 0x109)) := by decide

theorem test_decode_ata_reads :
    decode { xfer := .pioRead } (.ataRead .master 0) = .row (.ataDataR .master) ∧
    decode {} (.ataRead .master 0) = .row (.ataDataRIdle .master) ∧
    decode {} (.ataRead .master 1) = .row (.ataErrorR .master) ∧
    decode {} (.ataRead .master 2) = .row (.ataSectorCountR .master) ∧
    decode {} (.ataRead .master 3) = .row (.ataSectorNumberR .master) ∧
    decode {} (.ataRead .master 4) = .row (.ataCylinderLowR .master) ∧
    decode {} (.ataRead .master 5) = .row (.ataCylinderHighR .master) ∧
    decode {} (.ataRead .master 6) = .row (.ataDriveHeadR .master) ∧
    decode { busy := true } (.ataRead .master 7) = .row (.ataStatusR .master) ∧
    decode { busy := true } (.ataRead .master 0) = .row (.ataBusyR .master 0) ∧
    decode {} (.ataRead .master 9) = .row (.ataBadIndex .master .command 9 .read) ∧
    decode {} (.controlRead .master 6) = .row (.ataAltStatusR .master) ∧
    decode {} (.controlRead .master 7) = .row (.ataBadIndex .master .control 7 .read) ∧
    decode {} (.controlWrite .master 6 0x04) = .row (.ataDeviceControlW .master 0x04) := by decide

theorem test_decode_ata_commands :
    decode {} (.command .master 0x10) = .row (.recalibrate .master) ∧
    decode {} (.command .master 0x20) = .row (.readSectors .master) ∧
    decode {} (.command .master 0x21) = .row (.readSectorsNoRetry .master) ∧
    decode {} (.command .master 0x30) = .row (.writeSectors .master) ∧
    decode {} (.command .master 0x31) = .row (.writeSectorsNoRetry .master) ∧
    decode {} (.command .master 0x70) = .row (.seek .master) ∧
    decode {} (.command .master 0x91) = .row (.initializeDriveParameters .master) ∧
    decode {} (.command .master 0xC4) = .row (.readMultiple .master) ∧
    decode {} (.command .master 0xC5) = .row (.writeMultiple .master) ∧
    decode {} (.command .master 0xC6) = .row (.setMultipleMode .master) ∧
    decode {} (.command .master 0xEC) = .row (.identifyDrive .master) ∧
    decode {} (.command .master 0xEF) = .row (.setFeatures .master) ∧
    decode {} (.command .master 0x11) = .row (.ataUnknownCommand .master 0x11) ∧
    decode {} (.command .master 0x90) = .row (.ataUnknownCommand .master 0x90) := by decide

theorem test_decode_workers :
    decode { worker := some .stop } (.worker .slave) = .row (.workerStop .slave) ∧
    decode { worker := some .reset } (.worker .slave) = .row (.workerReset .slave) ∧
    decode { worker := some .command } (.worker .slave) = .row (.workerCommand .slave) ∧
    decode { worker := some .continueRead } (.worker .slave) = .row (.workerContinueRead .slave) ∧
    decode { worker := some .continueWrite } (.worker .slave) = .row (.workerContinueWrite .slave) ∧
    decode {} (.worker .slave) = .rejected .workerBlocked := by decide

theorem test_decode_demux_and_xtide :
    decode {} (.muxRead 7) = .row (.muxForward 7 .read) ∧
    decode {} (.muxWrite 7 0x20) = .row (.muxForward 7 (.write 0x20)) ∧
    decode {} (.muxWrite 6 0x50) = .row (.muxDriveHeadW 0x50) ∧
    decode {} (.muxControlWrite 0x06) = .row (.muxDeviceControlW 0x06) ∧
    decode {} .muxControlRead = .row .muxAltStatusR ∧
    decode {} (.muxNotify .slave) = .row (.muxNotify .slave) ∧
    decode { xt := .commandBlock 0 } (.portRead .xtide 0) = .row (.xtDataLowR 0) ∧
    decode { xt := .dataHigh } (.portRead .xtide 8) = .row (.xtDataHighR 8) ∧
    decode { xt := .dataHigh } (.portWrite .xtide 8 0xAA) = .row (.xtDataHighW 8 0xAA) ∧
    decode { xt := .commandBlock 0 } (.portWrite .xtide 0 0x55) = .row (.xtDataLowW 0 0x55) ∧
    decode { xt := .commandBlock 7 } (.portRead .xtide 7) = .row (.xtReg 7 .read) ∧
    decode { xt := .controlBlock } (.portWrite .xtide 14 0x04) = .row (.xtControl 14 (.write 0x04)) ∧
    decode { xt := .unmapped } (.portRead .xtide 9) = .row (.xtUnmapped 9 .read) := by decide

/-- R50: what is no row of the table is decoded to none; the step performs it as it stands. -/
theorem test_decode_events_without_row :
    decode {} (.wordWrite 0 1 0 0xFF 0x55) = .rejected .noRow ∧ decode {} (.teardown .master) = .rejected .noRow ∧
    decode {} (.join .master) = .rejected .noRow ∧ decode {} (.constructPic none) = .rejected .noRow := by decide

/-- A byte without its port: the ATA opcode goes first, then the PIC command port (notes/assumptions/2.md). -/
theorem test_decode_table_word :
    decodeTableWord 8 0x13 = some (.icw1 0 0x13) ∧ decodeTableWord 8 0x20 = some (.readSectors .master) ∧
    decodeTableWord 8 0x22 = some (.ocw2Eoi 0 0x22) ∧ decodeTableWord 8 0x100 = none ∧ decodeTableWord 16 0x13 = none := by
  decide

/-! ## PIC -/

/-- PI1, PI7. -/
theorem test_icw1 :
    (picAfter (.icw1 0 0x13) (Pic.constructed (Vector.replicate 8 none))).map (fun q => (q.icw1, q.fsm)) =
      some (0x13, .waitingForIcw2) ∧
    (picAfter (.icw1 0 0x11) { p1 with fsm := .waitingForIcw4 }).map (fun q => (q.icw1, q.icw2, q.fsm)) =
      some (0x11, 0x08, .waitingForIcw2) := by decide

/-- PI8: with the mask cleared the held request raises the output, and the sink is told. -/
theorem test_icw1_unmasks :
    (nextOf (exec (.icw1 0 0x13) (picState { p1 with ocw1 := 0xFF, irr := 0x08, edge := 0x08 }))).map
      (fun t => (t.sink.level, t.sink.notices)) = some (true, 1) := by decide

/-- PI2, PI5: the state after ICW2 by SNGL and IC4. -/
theorem test_icw2 :
    (picAfter (.icw2 0 0x08) { p1 with icw1 := 0x13, fsm := .waitingForIcw2 }).map (fun q => (q.icw2, q.fsm)) =
      some (0x08, .waitingForIcw4) ∧
    (picAfter (.icw2 0 0x08) { p1 with icw1 := 0x12, fsm := .waitingForIcw2 }).map (fun q => q.fsm) = some .idle ∧
    (picAfter (.icw2 0 0x08) { p1 with icw1 := 0x10, fsm := .waitingForIcw2 }).map (fun q => q.fsm) =
      some .waitingForIcw3 := by decide

/-- PI4, PI6. -/
theorem test_icw3 :
    (picAfter (.icw3 0 0x04) { p1 with icw1 := 0x11, fsm := .waitingForIcw3 }).map (fun q => (q.icw3, q.fsm)) =
      some (0x04, .waitingForIcw4) ∧
    (picAfter (.icw3 0 0x00) { p1 with icw1 := 0x10, fsm := .waitingForIcw3 }).map (fun q => q.fsm) = some .idle := by
  decide

/-- PI3. -/
theorem test_icw4 :
    (picAfter (.icw4 0 0x03) { p1 with fsm := .waitingForIcw4 }).map (fun q => (q.icw4, q.fsm)) = some (0x03, .idle) := by
  decide

/-- PO1, PO3. -/
theorem test_ocw1 :
    (picAfter (.ocw1 0 0x08) { p1 with irr := 0x28 }).map (fun q => (q.ocw1, q.out)) = some (0x08, true) ∧
    (picAfter (.ocw1 0 0xFF) { p1 with irr := 0x08, out := true }).map (fun q => (q.irr, q.out)) =
      some (0x08, false) := by decide

/-- PO4, PO5, PO6. -/
theorem test_ocw2_eoi :
    (picAfter (.ocw2Eoi 0 0x27) { p1 with isr := 0x28 }).map (·.isr) = some 0x20 ∧
    picAfter (.ocw2Eoi 0 0x20) p1 = some p1 := by decide

/-- PO7, PO8. -/
theorem test_ocw2_seoi :
    (picAfter (.ocw2Seoi 0 0x65) { p1 with isr := 0x28 }).map (·.isr) = some 0x08 ∧
    (picAfter (.ocw2Seoi 0 0x65) { p1 with isr := 0x08, irr := 0x08 }).map (·.isr) = some 0x08 := by decide

/-- PO9. -/
theorem test_ocw2_nops : picAfter (.ocw2NopSl 0 0x47) p1 = some p1 ∧ picAfter (.ocw2Nop0 0 0x00) p1 = some p1 := by decide

/-- PO10. -/
theorem test_ocw2_rotate : faultOf (exec (.ocw2Rotate 0 0xA0) (picState p1)) = some .picUnimplementedMode := by decide

/-- PO11, PO16. -/
theorem test_ocw3 :
    (picAfter (.ocw3 0 0x4B) p1).map (fun q => (q.ocw3, q.fsm)) = some (0x4B, .idle) ∧
    (picAfter (.ocw3Poll 0 0x0C) p1).map (fun q => (q.ocw3, q.fsm)) = some (0x0C, .poll) := by decide

/-- PO15. -/
theorem test_ocw3_smm : faultOf (exec (.ocw3Smm 0 0x68) (picState p1)) = some .picUnimplementedMode := by decide

/-- PO24, PO25. -/
theorem test_unspecified :
    refusalOf (exec (.picCmdWriteUnspec 0 0x20) (picState { p1 with fsm := .waitingForIcw2 })) =
      some (.picUnspecified .command .write .waitingForIcw2) ∧
    refusalOf (exec (.picDataWriteUnspec 0 0xFF) (picState { p1 with fsm := .poll })) =
      some (.picUnspecified .data .write .poll) ∧
    refusalOf (exec (.picCmdReadUnspec 0) (picState { p1 with fsm := .poll })) =
      some (.picUnspecified .command .read .poll) := by decide

/-- PO19, PO22: the poll byte, and no acknowledge. -/
theorem test_poll_read :
    (replyOf (.pollRead 0) (picState { p1 with fsm := .poll, irr := 0x28 })).map (·.bytes) = some [0x83] ∧
    (picAfter (.pollRead 0) { p1 with fsm := .poll, irr := 0x28 }).map (fun q => (q.irr, q.isr, q.fsm)) =
      some (0x28, 0x00, .idle) ∧
    (replyOf (.pollRead 0) (picState { p1 with fsm := .poll, irr := 0x08, isr := 0x08 })).map (·.bytes) =
      some [0x07] := by decide

/-- PO18, PO12, PO14. -/
theorem test_mask_and_selected_read :
    (replyOf (.maskRead 0) (picState { p1 with ocw1 := 0xB8 })).map (·.bytes) = some [0xB8] ∧
    (replyOf (.irrIsrRead 0) (picState { p1 with ocw3 := 0x0B, isr := 0x08, irr := 0x20 })).map (·.bytes) = some [0x08] ∧
    (replyOf (.irrIsrRead 0) (picState { p1 with ocw3 := 0x08, isr := 0x08, irr := 0x20 })).map (·.bytes) = some [0x20] := by
  decide

/-- PO26. -/
theorem test_bad_port :
    (replyOf (.picBadPort (.pic 0) 2 .read) (picState p1)).map (fun r => (r.bytes, r.diagnostics)) =
      some ([0xFF], [.picBadPort]) := by decide

/-- PL9, PL12: nothing is re-sampled. -/
theorem test_elcr :
    (picAfter (.elcrWrite 0 0x20) { p1 with edge := 0x20 }).map (fun q => (q.elcr, q.irr)) = some (0x20, 0x00) ∧
    (replyOf (.elcrRead 0) (picState { p1 with elcr := 0x20 })).map (·.bytes) = some [0x20] := by decide

/-- PL10. -/
theorem test_line_level :
    (picAfter (.lineLevel 0 5 true) { p1 with elcr := 0x20 }).map (fun q => (q.irr, q.out)) = some (0x20, true) ∧
    (picAfter (.lineLevel 0 5 false) { p1 with elcr := 0x20, irr := 0x20, edge := 0x20, out := true }).map
      (fun q => (q.irr, q.edge, q.out)) = some (0x00, 0x00, false) := by decide

/-- PL1, PL2. -/
theorem test_line_edge :
    (picAfter (.lineEdge 0 3 true) p1).map (fun q => (q.irr, q.edge, q.out)) = some (0x08, 0x08, true) ∧
    (picAfter (.lineEdge 0 3 false) { p1 with irr := 0x08, edge := 0x08, out := true }).map
      (fun q => (q.irr, q.edge, q.out)) = some (0x08, 0x00, true) := by decide

/-- PR1 step 7: line 3 of lines 3 and 5; PL13: AEOI. -/
theorem test_inta :
    (replyOf (.inta 0) (picState { p1 with irr := 0x28, out := true })).map (·.bytes) = some [0x0B] ∧
    (picAfter (.inta 0) { p1 with irr := 0x28, out := true }).map (fun q => (q.irr, q.isr, q.out)) =
      some (0x20, 0x08, true) ∧
    (picAfter (.inta 0) { p1 with irr := 0x08, icw4 := 0x03, out := true }).map (fun q => (q.irr, q.isr, q.out)) =
      some (0x00, 0x00, false) := by decide

/-- PL8. -/
theorem test_inta_spurious :
    (replyOf (.intaSpurious 0) (picState p1)).map (·.bytes) = some [0x0F] ∧ picAfter (.intaSpurious 0) p1 = some p1 := by
  decide

/-- PC2: the primary acknowledges its line, and the same agent goes on with the secondary. -/
theorem test_inta_cascade :
    (picAfter (.intaCascade 0) cascading).map (fun q => (q.irr, q.isr, q.out)) = some (0x00, 0x04, false) ∧
    followOf (.intaCascade 0) (picState cascading) = some [.inta 1] := by decide

/-- PC1: the secondary tells the primary's line. -/
theorem test_line_tells_primary :
    followOf (.lineEdge 1 1 true) State.reset = some [.line 0 2 true] := by decide

/-- R126: what the pseudo-operations go on with. -/
theorem test_pseudo :
    followOf (.picInit 0 0x11 0x08 0x04 0x01) (picState p1) =
      some [.portWrite (.pic 0) 1 0x08, .portWrite (.pic 0) 1 0x04, .portWrite (.pic 0) 1 0x01] ∧
    followOf (.picInit 0 0x12 0x08 0x04 0x01) (picState p1) = some [.portWrite (.pic 0) 1 0x08] ∧
    followOf (.poll 0) (picState p1) = some [.portRead (.pic 0) 1] ∧
    (picAfter (.eoi 0) { p1 with isr := 0x28 }).map (·.isr) = some 0x20 ∧
    (picAfter (.seoi 0 5) { p1 with isr := 0x28 }).map (·.isr) = some 0x08 ∧
    (picAfter (.mask 0 0xFF) p1).map (·.ocw1) = some 0xFF := by decide

/-! ## Splitting and dispatch -/

/-- SP3, SP5. -/
theorem test_split_write_calls :
    splitWriteCalls 3 2 2 0xBBAA = [⟨2, 0xFF00, 0xAA00⟩, ⟨4, 0x00FF, 0x00BB⟩] ∧
    splitWriteCalls 6 4 4 0x44332211 = [⟨4, 0xFFFF0000, 0x22110000⟩, ⟨8, 0x0000FFFF, 0x00004433⟩] := by decide

/-- SP7: 9 bytes of words for an 8-byte access. -/
theorem test_split_round_trip_sp7 :
    splitWriteCalls 1 8 8 0x8877665544332211 =
      [⟨0, 0xFFFFFFFFFFFFFF00, 0x7766554433221100⟩, ⟨8, 0x00000000000000FF, 0x0000000000000088⟩] ∧
    assembleRead 1 8 8 [(0, 0x7766554433221100), (8, 0x0000000000000088)] = 0x8877665544332211 := by decide

/-- SP6, SP8. -/
theorem test_assemble_read :
    assembleRead 1 2 4 [(0, 0x44332211)] = 0x3322 ∧
    assembleRead 7 2 8 [(0, 0xAB00000000000000), (8, 0xCD)] = 0xCDAB := by decide

/-- PR7 step 3: a wide access at a port device. -/
theorem test_split_port :
    followOf (.splitWrite (.port (.pic 0)) 0 2 0x0813 1) State.reset =
      some [.portWrite (.pic 0) 0 0x13, .portWrite (.pic 0) 1 0x08] ∧
    followOf (.splitRead (.port .xtide) 0 2 1) State.reset = some [.portRead .xtide 0, .portRead .xtide 1] := by decide

/-- S3, and R71 at the end of the block: one word call after the other, low byte first, modulo the size. -/
theorem test_split_memory :
    followOf (.splitWrite (.memory 0) 6 4 0x44332211 4) State.reset =
      some [.wordWrite 0 4 4 0xFFFF0000 0x22110000, .wordWrite 0 4 8 0x0000FFFF 0x00004433] ∧
    (nextOf (State.reset.runEvent (.wordWrite 0 4 4 0xFFFF0000 0x22110000))).map
      (fun t => [t.hostByte 0 5, t.hostByte 0 6, t.hostByte 0 7, t.hostByte 0 8]) = some [0x00, 0x11, 0x22, 0x00] ∧
    (nextOf (State.reset.runEvent (.wordWrite 0 1 0x10000 0xFF 0x22))).map (fun t => t.hostByte 0 0) = some 0x22 := by
  decide

/-- R133: the untouched lanes of a word read are masked away. -/
theorem test_word_read :
    followOf (.splitRead (.memory 0) 3 2 4) State.reset =
      some [.wordRead 0 4 0 0xFF000000, .wordRead 0 4 4 0x000000FF] ∧
    ((nextOf (({ State.reset with hostBlocks := [{ HostBlock.constructed 8 0 4 with cells := [(3, 0x33), (4, 0x44)] }] } :
      State).runEvent (.wordRead 0 4 0 0xFF000000))).map (fun t => (t.thread t.active).reply.bytes)) = some [0x33] := by
  decide

/-- S1, DI8. -/
theorem test_register :
    faultOf (exec (.reg .io 0x0FFF 0x1001 (.memory 0) 0) busState) = some .configurationConflict ∧
    refusalOf (exec (.reg .io 0x2000 0x2000 (.memory 0) 0) busState) = some .emptyRange ∧
    ((nextOf (exec (.reg .io 0x2000 0x2001 (.memory 0) 0) busState)).map (fun t => t.io.ranges.length)) = some 3 := by decide

/-- U10, R336 (notes/assumptions/16.md): a handler that does not exist. -/
theorem test_register_absent_handler :
    refusalOf (exec (.reg .io 0x2000 0x2001 (.memory 1) 0) busState) = some (.absentDevice (.hostBlock 1)) ∧
    refusalOf (exec (.reg .io 0x2000 0x2001 (.port (.pic 2)) 0) busState) = some (.absentDevice (.pic 2)) := by decide

/-- DI15, DI16. -/
theorem test_release :
    (nextOf (exec (.release 0 .release) busState)).map (fun t => (t.io.ranges.length, t.registrations.map (·.attached))) =
      some (2, [false, false]) ∧
    (nextOf (exec (.release 0 .destroy) busState)).map (fun t => t.io.ranges) = some [rangeB] := by decide

/-- DI11. -/
theorem test_unregister :
    (nextOf (exec (.unreg .io rangeA) busState)).map (fun t => t.io.ranges) = some [rangeB] := by decide

/-- S2. -/
theorem test_resolve :
    (replyOf (.resolve .io 0x0FFF) busState).map (·.route) = some (some (.to (.port (.pic 0)) 0xFFF)) ∧
    (replyOf (.resolve .io 0x1000) busState).map (·.route) = some (some (.to (.port (.elcr 0)) 0)) := by decide

/-- DI6, DI4. -/
theorem test_bus_read :
    followOf (.inPort .io 0x0FFF 2) busState = some [.splitRead (.port (.pic 0)) 0xFFF 2 1] ∧
    (replyOf (.inPort .io 0x2000 2) busState).map (fun r => (r.bytes, r.diagnostics)) =
      some ([0xFF, 0xFF], [.unresolvedAddress]) := by decide

/-- DI5, PR7 step 3. -/
theorem test_bus_write :
    followOf (.outPort .io 0x1000 1 0x20) busState = some [.splitWrite (.port (.elcr 0)) 0 1 0x20 1] ∧
    (replyOf (.outPort .io 0x2000 1 0x55) busState).map (fun r => (r.bytes, r.diagnostics)) =
      some ([], [.unresolvedAddress]) := by decide

/-- The machine with a host block of 0x10000 bytes at 0xA0000 to 0xC0000 of the memory space (DI13). -/
def memState : State :=
  { State.reset with
    mem := { Dispatcher.constructed 64 with
      ranges := [{ beginAddress := 0xA0000, endAddress := 0xC0000, offset := 0, handler := .memory 0 }] } }

/-- DI13: two tiles. -/
theorem test_establish :
    (nextOf (exec (.establishMappings .mem 0 0 0x100000) memState)).map
      (fun t => t.mem.engineMap.map (fun x => (x.base, x.limit))) =
        some [(0xA0000, 0xB0000), (0xB0000, 0xC0000)] := by decide

/-- R141. -/
theorem test_remove_mappings :
    ((nextOf (exec (.establishMappings .mem 0 0 0x100000) memState)).bind (fun t => nextOf (exec (.removeMappings .mem) t))).map
      (fun t => (t.mem.engineMap.length, t.mem.mapped.length, t.mem.engine)) = some (0, 0, none) := by decide

/-! ## ATA device -/

/-- AT2. -/
theorem test_register_writes :
    (masterAfter (.ataFeatureW .master 0x01) a0).map (·.regs.feature) = some 0x01 ∧
    (masterAfter (.ataSectorCountW .master 0x05) a0).map (·.regs.sectorCount) = some 0x05 ∧
    (masterAfter (.ataSectorNumberW .master 0x04) a0).map (·.regs.sectorNumber) = some 0x04 ∧
    (masterAfter (.ataCylinderLowW .master 0x03) a0).map (·.regs.cylinderLow) = some 0x03 ∧
    (masterAfter (.ataCylinderHighW .master 0x02) a0).map (·.regs.cylinderHigh) = some 0x02 ∧
    (masterAfter (.ataDriveHeadW .master 0xE1) a0).map (·.regs.driveHead) = some 0xE1 := by decide

/-- AT3, AT6. -/
theorem test_command_write :
    (masterAfter (.ataCommandW .master 0xEC) a0).map (fun d => (d.regs.command, d.regs.status, d.commandRequested)) =
      some (0xEC, 0xD0, true) ∧
    refusalOf (exec (.ataCommandW .master 0x20) (ataState busyDevice)) = some .ataCommandWhileBusy := by decide

/-- AT4, AT5. -/
theorem test_busy_gate :
    (masterAfter (.ataGatedW .master 2 0x09) busyDevice).map (·.regs.sectorCount) = some 0x01 ∧
    (replyOf (.ataGatedW .master 2 0x09) (ataState busyDevice)).map (·.diagnostics) = some [.ataBusy] ∧
    (replyOf (.ataBusyR .master 0) (ataState busyDevice)).map (·.bytes) = some [0xD0] := by decide

/-- AP7, AP2: two bytes or one. -/
theorem test_data_write :
    (masterAfter (.ataDataW .master 0xAA55) writing).map
      (fun d => (d.buffer, d.cursor, d.regs.status, d.xfer, d.continueRequested)) =
        some ([(510, 0x55), (511, 0xAA)], 512, 0xD0, .idle, true) ∧
    (masterAfter (.ataDataW .master 0xAA55) { writing with pio8 := true }).map (fun d => (d.buffer, d.cursor, d.xfer)) =
      some ([(510, 0x55)], 511, .pioWrite) := by decide

/-- AP1, AP3. -/
theorem test_data_read :
    (replyOf (.ataDataR .master) (ataState reading)).map (·.bytes) = some [0x34, 0x12] ∧
    (masterAfter (.ataDataR .master) { reading with cursor := 510 }).map (fun d => (d.cursor, d.regs.status, d.xfer)) =
      some (512, 0x50, .idle) := by decide

/-- AP4. -/
theorem test_data_read_next_chunk :
    (masterAfter (.ataDataR .master)
      { reading with cursor := 510, op := some { kind := .read, lba := 7, remaining := 2, chunk := 1 } }).map
      (fun d => (d.op, d.regs.status, d.continueRequested)) =
        some (some { kind := .read, lba := 8, remaining := 1, chunk := 1 }, 0xD0, true) := by decide

/-- AT7. -/
theorem test_data_without_transfer :
    (replyOf (.ataDataRIdle .master) (ataState a0)).map (fun r => (r.bytes, r.diagnostics)) =
      some ([0xFF, 0xFF], [.ataNoTransfer]) ∧
    masterAfter (.ataDataWIdle .master 0x1234) reading = some reading := by decide

/-- AT1 and R220. -/
theorem test_register_reads :
    (replyOf (.ataErrorR .master) (ataState a0)).map (·.bytes) = some [0x01] ∧
    (replyOf (.ataSectorCountR .master) (ataState (addressed 5 4 3 2 0xE1))).map (·.bytes) = some [5] ∧
    (replyOf (.ataSectorNumberR .master) (ataState (addressed 5 4 3 2 0xE1))).map (·.bytes) = some [4] ∧
    (replyOf (.ataCylinderLowR .master) (ataState (addressed 5 4 3 2 0xE1))).map (·.bytes) = some [3] ∧
    (replyOf (.ataCylinderHighR .master) (ataState (addressed 5 4 3 2 0xE1))).map (·.bytes) = some [2] ∧
    (replyOf (.ataDriveHeadR .master) (ataState (addressed 5 4 3 2 0xE1))).map (·.bytes) = some [0xE1] := by decide

/-- AT11: a status read lowers the interrupt, an alternate-status read does not. -/
theorem test_status_reads :
    (masterAfter (.ataStatusR .master) reading).map (·.intrq) = some false ∧
    (masterAfter (.ataAltStatusR .master) reading).map (·.intrq) = some true ∧
    (replyOf (.ataAltStatusR .master) (ataState reading)).map (·.bytes) = some [0x58] := by decide

/-- AT8. -/
theorem test_bad_index :
    (replyOf (.ataBadIndex .master .command 9 .read) (ataState a0)).map (fun r => (r.bytes, r.diagnostics)) =
      some ([0xFF, 0xFF], [.ataBadRegister]) := by decide

/-- AT12, AT14. -/
theorem test_device_control :
    (masterAfter (.ataDeviceControlW .master 0x02) a0).map (·.nIEN) = some true ∧
    (masterAfter (.ataDeviceControlW .master 0x04) a0).map (fun d => (d.resetRequested, d.regs.status)) =
      some (true, 0xD0) := by decide

/-! ## ATA commands and the worker -/

/-- AC1. -/
theorem test_no_op_commands :
    (masterAfter (.recalibrate .master) busyDevice).map (fun d => (d.regs.status, d.regs.error, d.intrq)) =
      some (0x50, 0x00, true) ∧
    (masterAfter (.seek .master) busyDevice).map (fun d => (d.regs.status, d.regs.error, d.intrq)) =
      some (0x50, 0x00, true) := by decide

/-- AC3, AC5. -/
theorem test_initialize_drive_parameters :
    (masterAfter (.initializeDriveParameters .master) (addressed 0x11 0 0 0 0x03)).map (·.geometry) =
      some (some { heads := 4, sectorsPerTrack := 17 }) ∧
    (masterAfter (.initializeDriveParameters .master) (addressed 0x00 0 0 0 0x03)).map
      (fun d => (d.geometry, d.regs.status, d.regs.error, d.intrq)) = some (none, 0x51, 0x04, false) := by decide

/-- AC6, AC8. -/
theorem test_set_features :
    (masterAfter (.setFeatures .master) { a0 with regs := { RegFile.powerUp with feature := 0x01 } }).map (·.pio8) =
      some true ∧
    (masterAfter (.setFeatures .master) { a0 with regs := { RegFile.powerUp with feature := 0x02 } }).map
      (fun d => (d.pio8, d.regs.status)) = some (false, 0x51) := by decide

/-- AC9, AC10. -/
theorem test_set_multiple :
    (masterAfter (.setMultipleMode .master) (addressed 0x10 0 0 0 0)).map (·.multipleBlock) = some 16 ∧
    (masterAfter (.setMultipleMode .master) (addressed 0x11 0 0 0 0)).map (fun d => (d.multipleBlock, d.regs.error)) =
      some (0, 0x04) := by decide

/-- AC14, AC13. -/
theorem test_read_sectors :
    (masterAfter (.readSectors .master) (addressed 1 0x3F 0x42 0x0F 0x40)).map
      (fun d => (d.regs.status, d.length, d.xfer, d.intrq)) = some (0x58, 512, .pioRead, true) ∧
    (masterAfter (.readSectorsNoRetry .master) (addressed 1 0x04 0x03 0x02 0xE1)).map
      (fun d => (d.regs.status, d.xfer, d.intrq)) = some (0x51, .idle, false) := by decide

/-- AC17, AC18: count 0 is 256; a CHS address. -/
theorem test_sector_address :
    sectorCount (addressed 0 0x40 0x41 0x0F 0x40).regs = 256 ∧
    (addressed 0 0x40 0x41 0x0F 0x40).sectorAddress (addressed 0 0x40 0x41 0x0F 0x40).regs = some 999744 ∧
    a0.sectorAddress (addressed 1 0x03 0x01 0x00 0x02).regs = some 1136 := by decide

/-- AC19, AC20. -/
theorem test_sector_address_abort :
    a0.sectorAddress (addressed 1 0x00 0x01 0x00 0x02).regs = none ∧
    a0.sectorAddress (addressed 1 0x40 0x01 0x00 0x02).regs = none := by decide

/-- AC22. -/
theorem test_write_sectors :
    (masterAfter (.writeSectors .master) { addressed 1 17 2 0 3 with geometry := some { heads := 4, sectorsPerTrack := 17 } }).map
      (fun d => (d.op, d.xfer, d.regs.status, d.intrq)) =
        some (some { kind := .write, lba := 203, remaining := 1, chunk := 1 }, .pioWrite, 0x58, true) ∧
    (masterAfter (.writeSectorsNoRetry .master) (addressed 1 0x3F 0x42 0x0F 0x40)).map (·.xfer) = some .pioWrite := by decide

/-- PR5 step 5 with one sector left over, AC12. -/
theorem test_read_multiple :
    (masterAfter (.readMultiple .master) { addressed 1 0 0 0 0x40 with multipleBlock := 2 }).map (fun d => (d.op, d.length)) =
      some (some { kind := .read, lba := 0, remaining := 1, chunk := 2 }, 512) ∧
    (masterAfter (.readMultiple .master) (addressed 1 0 0 0 0x40)).map (·.regs.status) = some 0x51 := by decide

/-- R245, AC12. -/
theorem test_write_multiple :
    (masterAfter (.writeMultiple .master) { addressed 5 0 0 0 0x40 with multipleBlock := 2 }).map (fun d => (d.op, d.length)) =
      some (some { kind := .write, lba := 0, remaining := 5, chunk := 2 }, 1024) ∧
    (masterAfter (.writeMultiple .master) (addressed 1 0 0 0 0x40)).map (·.regs.status) = some 0x51 := by decide

/-- PR4: words 60, 61 and 1 of the example disk. -/
theorem test_identify_words :
    identifyWord Config.exampleDisk 60 = 0x4240 ∧ identifyWord Config.exampleDisk 61 = 0x000F ∧
    identifyWord Config.exampleDisk 1 = 992 := by decide

/-- AC23. -/
theorem test_identify :
    (masterAfter (.identifyDrive .master) a0).map (fun d => (d.regs.status, d.length, d.op, bufferByte .master d.buffer 120)) =
      some (0x58, 512, none, 0x40) := by decide

/-- AT9. -/
theorem test_unknown_command :
    (masterAfter (.ataUnknownCommand .master 0xE7) busyDevice).map (fun d => (d.regs.status, d.regs.error, d.intrq)) =
      some (0x51, 0x04, false) := by decide

/-- AP12. -/
theorem test_worker_stop :
    (masterAfter (.workerStop .master) { a0 with stopRequested := true, commandRequested := true }).map
      (fun d => (d.stopped, d.workerKind)) = some (true, none) := by decide

/-- AT14, AT15. -/
theorem test_worker_reset :
    (masterAfter (.workerReset .master)
      { addressed 9 0 0 0 0 with resetRequested := true, pio8 := true, multipleBlock := 4 }).map
      (fun d => (d.regs.sectorCount, d.commandRequested, d.pio8, d.multipleBlock)) = some (1, false, true, 4) := by decide

/-- AT10. -/
theorem test_worker_command :
    (masterAfter (.workerCommand .master)
      { busyDevice with commandRequested := true, regs := { RegFile.powerUp with status := 0xD1, command := 0x10 } }).map
      (fun d => (d.regs.status, d.commandRequested, d.intrq)) = some (0x50, false, true) := by decide

/-- AP5: the byte of the store reaches the buffer. -/
theorem test_worker_continue_read :
    (masterAfter (.workerContinueRead .master)
      { busyDevice with
        continueRequested := true, store := [(4097, 0x77)],
        op := some { kind := .read, lba := 8, remaining := 1, chunk := 1 } }).map
      (fun d => (bufferByte .master d.buffer 1, d.regs.status, d.xfer, d.intrq)) = some (0x77, 0x58, .pioRead, true) := by
  decide

/-- AP9: the chunk is stored and the next one asked for. The buffer is filled from its first byte to its last. -/
theorem test_worker_continue_write :
    (masterAfter (.workerContinueWrite .master)
      { busyDevice with
        continueRequested := true, length := 512,
        buffer := cellsAt 0 (List.replicate 511 0x00 ++ [0x99]),
        op := some { kind := .write, lba := 10, remaining := 2, chunk := 1 } }).map
      (fun d => (d.store, d.regs.status, d.intrq)) = some ([(5631, 0x99)], 0x58, true) := by decide +kernel

/-! ## Demux and XTIDE -/

/-- DM2. -/
theorem test_mux_forward :
    (nextOf (exec (.muxForward 7 (.write 0x20)) { State.reset with mux := { State.reset.mux with selected := .slave } })).map
      (fun t => (t.slave.regs.status, t.master.regs.status)) = some (0xD0, 0x50) := by decide

/-- DM1, DM3: the output falls with the selection, and the host line is told. -/
theorem test_mux_drive_head :
    (nextOf (exec (.muxDriveHeadW 0x50) State.reset)).map
      (fun t => (t.mux.selected, t.slave.regs.driveHead, t.master.regs.driveHead)) = some (.slave, 0x50, 0x00) ∧
    followOf (.muxDriveHeadW 0x10) { ataState { a0 with intrq := true } with mux := { State.reset.mux with out := true } } =
      some [.line 0 5 false] := by decide

/-- DM6. -/
theorem test_mux_device_control :
    (nextOf (exec (.muxDeviceControlW 0x06) State.reset)).map
      (fun t => (t.mux.nIENMaster, t.mux.nIENSlave, t.master.nIEN, t.slave.nIEN)) = some (true, false, true, false) ∧
    (nextOf (exec (.muxDeviceControlW 0x06) State.reset)).map
      (fun t => (t.master.resetRequested, t.slave.resetRequested)) = some (true, true) := by decide

/-- DM10. -/
theorem test_mux_alt_status :
    (replyOf .muxAltStatusR (ataState reading)).map (·.bytes) = some [0x58] ∧
    (nextOf (exec .muxAltStatusR (ataState reading))).map (·.master.intrq) = some true := by decide

/-- DM5, R276. -/
theorem test_mux_notify :
    followOf (.muxNotify .master) (ataState reading) = some [.line 0 5 true] ∧
    followOf (.muxNotify .slave) State.reset = some [] := by decide

/-- XT1, XT5. -/
theorem test_xt_data_low_read :
    (nextOf (exec (.xtDataLowR 0) (ataState reading))).map (fun t => (t.latch, t.master.cursor)) = some (0x1234, 2) ∧
    (nextOf (exec (.xtDataLowR 0) (ataState busyDevice))).map (fun t => t.latch) = some 0x00D0 := by decide

/-- XT1. -/
theorem test_xt_data_high_read :
    (replyOf (.xtDataHighR 8) { State.reset with latch := 0x1234 }).map (·.bytes) = some [0x12] := by decide

/-- XT3. -/
theorem test_xt_writes :
    (nextOf (exec (.xtDataHighW 8 0xAA) { State.reset with latch := 0x1234 })).map (·.latch) = some 0xAA34 ∧
    (nextOf (exec (.xtDataLowW 0 0x55) { ataState writing with latch := 0x1234 })).map (·.master.buffer) =
      some [(510, 0x55), (511, 0x12)] := by decide

/-- XT6. -/
theorem test_xt_reg :
    (replyOf (.xtReg 7 .read) (ataState reading)).map (·.bytes) = some [0x58] ∧
    (nextOf (exec (.xtReg 2 (.write 0x05)) State.reset)).map (·.master.regs.sectorCount) = some 0x05 := by decide

/-- R286. -/
theorem test_xt_control :
    (replyOf (.xtControl 14 .read) (ataState reading)).map (·.bytes) = some [0x58] ∧
    (nextOf (exec (.xtControl 14 (.write 0x04)) State.reset)).map (·.slave.resetRequested) = some true := by decide

/-- XT7. -/
theorem test_xt_unmapped :
    (replyOf (.xtUnmapped 9 .read) State.reset).map (fun r => (r.bytes, r.diagnostics)) = some ([0xFF], [.ataBadRegister]) := by
  decide

/-! ## Destruction and construction -/

/-- R45, R236: a destruction asks for the stop and waits for the worker. -/
theorem test_teardown_and_join :
    (nextOf (State.reset.runEvent (.teardown .master))).map
      (fun t => (t.master.stopRequested, t.master.stopped, (t.thread t.active).follow)) =
        some (true, false, [.join .master]) ∧
    (nextOf (State.reset.runEvent (.join .master))).map (fun t => (t.thread t.active).follow) = some [.join .master] ∧
    (nextOf ((ataState { a0 with stopped := true }).runEvent (.join .master))).map
      (fun t => (t.thread t.active).follow) = some [] := by decide

/-- R55: a device is constructed only where the old one's worker has ended, and keeps its disk. -/
theorem test_construct_device :
    refusalOf (State.reset.runEvent (.constructDevice .master)) = some (.notConstructible (.deviceAlive .master)) ∧
    (nextOf ((ataState { busyDevice with stopped := true, store := [(7, 0x77)] }).runEvent (.constructDevice .master))).map
      (fun t => (t.master.regs.status, t.master.stopped, t.master.store)) = some (0x50, false, [(7, 0x77)]) := by decide

/-- R54, R28: a new PIC drives the line it is wired to, and no line has two secondaries. -/
theorem test_construct_pic :
    (nextOf (State.reset.runEvent (.constructPic (some { pic := 1, line := 3 })))).map
      (fun t => (t.pics.length, t.primaryLine 2, t.pics[2]?)) =
        some (3, some { pic := 1, line := 3 }, some (Pic.constructed noSecondaries)) ∧
    refusalOf (State.reset.runEvent (.constructPic (some { pic := 0, line := 2 }))) =
      some (.notConstructible (.lineTaken { pic := 0, line := 2 })) ∧
    refusalOf (State.reset.runEvent (.constructPic (some { pic := 2, line := 0 }))) = some (.absentDevice (.pic 2)) := by
  decide

/-- R71, R130. -/
theorem test_construct_memory :
    (nextOf (State.reset.runEvent (.constructMemory 16 3 2))).map
      (fun t => (t.hostBlocks[1]?, (t.thread t.active).reply.handle)) = some (some ⟨16, 3, 2, []⟩, some 1) ∧
    refusalOf (State.reset.runEvent (.constructMemory 0 3 2)) = some (.notConstructible (.memoryShape 0 2)) ∧
    refusalOf (State.reset.runEvent (.constructMemory 16 3 3)) = some (.notConstructible (.memoryShape 16 3)) := by decide

/-- The next step runs the byte that was placed. -/
theorem test_step_runs_placed_byte :
    ((nextOf (step (State.reset.withFetchWord 8 0x13))).bind (·.pics.head?)).map (·.fsm) = some .waitingForIcw2 := by decide

/-! ## The hypotheses of the statements are met -/

/-- A state whose next agent is engine 0, in the middle of an operation. -/
def midOperation : State :=
  { picState p1 with
    schedule := [.engine 0], threads := [(.engine 0, { follow := [.portWrite (.pic 0) 0 0x20] })] }

/-- A state whose next agent is a thread of a device outside the block, with an operation to begin. -/
def freshOperation : State :=
  { picState p1 with schedule := [.device 0], threads := [(.device 0, { program := [.line 0 3 true] })] }

theorem witness_decode_of_encode :
    (Instr.icw2 0 0x08).wellFormed = true ∧ (Instr.icw2 0 0x08).appliesIn { fsm := .waitingForIcw2 } = true ∧
    (Instr.xtReg 7 .read).wellFormed = true ∧ (Instr.xtReg 7 .read).appliesIn { xt := .commandBlock 7 } = true := by decide

theorem witness_encode_of_decode :
    (∀ n w, Event.portWrite (.pic 0) 0 0x20 ≠ .bare n w) ∧
    decode {} (.portWrite (.pic 0) 0 0x20) = .row (.ocw2Eoi 0 0x20) :=
  ⟨fun _ _ => nofun, by decide⟩

theorem witness_step_in_operation :
    midOperation.nextAgent = .engine 0 ∧
    (midOperation.thread midOperation.nextAgent).follow = [.portWrite (.pic 0) 0 0x20] ∧
    decode (midOperation.ctx (.portWrite (.pic 0) 0 0x20)) (.portWrite (.pic 0) 0 0x20) = .row (.ocw2Eoi 0 0x20) ∧
    (Instr.ocw2Eoi 0 0x20).wellFormed = true := by decide

theorem witness_step_begins_operation :
    freshOperation.nextAgent = .device 0 ∧ (freshOperation.thread freshOperation.nextAgent).follow = [] ∧
    (freshOperation.thread freshOperation.nextAgent).program = [.line 0 3 true] ∧
    decode (freshOperation.ctx (.line 0 3 true)) (.line 0 3 true) = .row (.lineEdge 0 3 true) := by decide

theorem witness_step_of_worker :
    ({ ataState { a0 with commandRequested := true } with schedule := [.worker .master] } : State).nextAgent =
      .worker .master ∧
    (({ ataState { a0 with commandRequested := true } with schedule := [.worker .master] } : State).thread
      (.worker .master)).follow = [] ∧
    decode (({ ataState { a0 with commandRequested := true } with schedule := [.worker .master] } : State).ctx
      (.worker .master)) (.worker .master) = .row (.workerCommand .master) := by decide

theorem witness_step_of_pit :
    ({ State.reset with
      schedule := [.pit], wiring := { muxLine := none, pitLine := some { pic := 0, line := 0 } } } : State).nextAgent =
        .pit ∧
    decode (State.reset.ctx (.line 0 0 true)) (.line 0 0 true) = .row (.lineEdge 0 0 true) := by decide

theorem witness_step_leaves_other_agents :
    (∃ t, step midOperation = .next t) ∧ Agent.pit ≠ midOperation.nextAgent := ⟨⟨_, rfl⟩, by decide⟩

theorem witness_pic_present : (picState p1).pics[0]? = some p1 ∧ p1.fsm = .idle ∧ (0x13 : Byte) &&& 0x10 ≠ 0 := by decide

theorem witness_handshake_states :
    (picState { p1 with fsm := .waitingForIcw2 }).pics[0]? = some { p1 with fsm := .waitingForIcw2 } ∧
    (picState { p1 with fsm := .waitingForIcw3 }).pics[0]? = some { p1 with fsm := .waitingForIcw3 } ∧
    (picState { p1 with fsm := .waitingForIcw4 }).pics[0]? = some { p1 with fsm := .waitingForIcw4 } ∧
    (picState { p1 with fsm := .poll }).pics[0]? = some { p1 with fsm := .poll } ∧
    ({ p1 with fsm := .poll } : Pic).fsm ≠ .idle := by decide

theorem witness_ocw2_bytes :
    (0x27 : Byte) &&& 0xF8 = 0x20 ∧ (0x65 : Byte) &&& 0xF8 = 0x60 ∧ ((0x65 : Byte) &&& 0x07).toNat = 5 ∧
    (0x47 : Byte) &&& 0xF8 = 0x40 ∧ (0x07 : Byte) &&& 0xF8 = 0x00 ∧ (0xE7 : Byte) &&& 0x98 = 0x80 := by decide

theorem witness_ocw3_bytes :
    (0x8B : Byte) &&& 0x3C = 0x08 ∧ (0x0F : Byte) &&& 0x3C = 0x0C ∧ (0x6F : Byte) &&& 0x38 = 0x28 := by decide

/-- Lines 3 and 5 requested: line 3 is selected; nothing is unserviced in P1. -/
theorem witness_selects :
    ({ p1 with irr := 0x28 } : Pic).Selects 3 ∧ p1.irr &&& ~~~p1.ocw1 &&& ~~~p1.isr = 0 ∧
    ({ p1 with irr := 0x28 } : Pic).secondary.get 3 = none ∧ cascading.Selects 2 ∧ cascading.secondary.get 2 = some 1 :=
  ⟨⟨by decide, by decide, by decide, by decide⟩, by decide, by decide, ⟨by decide, by decide, by decide, by decide⟩,
    by decide⟩

/-- Line 7, the last one, selected. -/
theorem witness_selects_last : ({ p1 with irr := 0x80 } : Pic).Selects 7 :=
  ⟨by decide, by decide, by decide, by decide⟩

theorem witness_trigger_modes :
    ({ p1 with elcr := 0x20 } : Pic).LevelTriggered 5 ∧ ¬p1.LevelTriggered 5 ∧ p1.edge.getLsbD 5 = false ∧
    ({ p1 with icw1 := 0x1B } : Pic).LevelTriggered 0 := by
  refine ⟨Or.inr (by decide), ?_, by decide, Or.inl (by decide)⟩
  rintro (h | h)
  · exact h (by decide)
  · exact absurd h (by decide)

theorem witness_bad_offsets :
    badOffset (.pic 0) 2 = true ∧ badOffset (.elcr 0) 1 = true ∧ badIndex .command 8 = true ∧ badIndex .control 5 = true ∧
    badIndex .control 7 = true := by decide

theorem witness_priority :
    (picState { p1 with irr := 0x28 }).pics[0]? = some { p1 with irr := 0x28 } ∧ p1.ocw1 &&& 0x28 = 0 ∧
    p1.icw4 &&& 0x02 = 0 ∧ p1.secondary.get 3 = none ∧ p1.secondary.get 5 = none ∧ p1.isr = 0 := by decide

/-- An edge request and an operation that leaves it; a port access that moves the command machine. -/
theorem witness_whole_machine_pic :
    (∃ t, exec (.ocw1 0 0xFF) (picState { p1 with irr := 0x08 }) = .next t ∧
      t.pics[0]? = some { p1 with irr := 0x08, ocw1 := 0xFF }) ∧
    (Instr.ocw1 0 0xFF).acknowledgesPic 0 = false ∧
    (∃ t, exec (.icw1 0 0x13) (picState p1) = .next t ∧ t.pics[0]? = some { p1 with fsm := .waitingForIcw2 }) :=
  ⟨⟨_, rfl, by decide⟩, by decide, ⟨_, rfl, by decide⟩⟩

theorem witness_split :
    sizeOk 8 = true ∧ sizeOk 1 = true ∧ dataOk 8 0xFFFFFFFFFFFFFFFF = true ∧ dataOk 1 0xFF = true ∧
    State.reset.hostBlocks[0]? = some { size := 65536, permissions := 0, word := 1, cells := [] } := by decide

/-- A handler that stores whole bytes meets the premise of the round trip (SP7). -/
theorem witness_round_trip :
    ∀ c ∈ splitWriteCalls 1 8 8 0x8877665544332211, ∀ j, j < 8 → c.mask.getLsbD (8 * j) = true →
      quadByte ((fun x => if x = 0 then 0x77665544332211FF else 0xFFFFFFFFFFFFFF88 : Nat → Quad) c.address) j =
        quadByte c.data j := by decide

theorem witness_busState_inv : (busState.dispatcher .io).Inv ∧ rangeA ∈ (busState.dispatcher .io).ranges :=
  ⟨⟨by decide, by decide⟩, by decide⟩

/-- Registration: an empty range, an overlap of one byte, and a range that touches. -/
theorem witness_register :
    (∃ q ∈ (busState.dispatcher .io).ranges, q.beginAddress < 0x2001 ∧ 0x1FFF < q.endAddress) ∧
    (∀ q ∈ (busState.dispatcher .io).ranges, ¬(q.beginAddress < 0x2001 ∧ 0x2000 < q.endAddress)) ∧
    busState.absentHandler (.memory 0) = none ∧ busState.absentHandler (.memory 1) = some (.hostBlock 1) ∧
    busState.absentHandler (.port (.elcr 1)) = none ∧ busState.absentHandler (.port (.elcr 2)) = some (.pic 2) := by decide

theorem witness_handles :
    busState.registrations[0]? = some { space := .io, range := rangeA, attached := true } ∧
    busState.registrations[1]? = some { space := .io, range := rangeB, attached := false } := by decide

/-- Resolution at the first and last address of a range, and just after the last one. -/
theorem witness_dispatch :
    rangeA.beginAddress ≤ 0 ∧ 0xFFF < rangeA.endAddress ∧ rangeB.beginAddress ≤ 0x1000 ∧ 0x1FFF < rangeB.endAddress ∧
    ∀ r ∈ (busState.dispatcher .io).ranges, ¬(r.beginAddress ≤ 0x2000 ∧ 0x2000 < r.endAddress) := by decide

theorem witness_mappings :
    (memState.dispatcher .mem).engine = none ∧
    (∃ t, exec (.establishMappings .mem 0 0 0x100000) memState = .next t ∧ (t.dispatcher .mem).engine ≠ none ∧
      (t.dispatcher .mem).mapped = (memState.dispatcher .mem).ranges) :=
  ⟨by decide, _, rfl, by decide, by decide⟩

/-- The machine with the range of `memState` mapped, and the host about to detach the engine. -/
def mappedState : State :=
  { memState with
    mem := { memState.mem with
      engine := some { engine := 0, base := 0, limit := 0x100000 }, mapped := memState.mem.ranges,
      engineMap := memState.mem.ranges.flatMap (mappingsOf memState.hostBlocks) },
    schedule := [.host], threads := [(.host, { program := [.removeMappings .mem] })] }

/-- R80 with an engine attached and a range mapped, where a step withdraws the mappings. -/
theorem witness_mapping_invariant :
    mappedState.DispatcherInv ∧ mappedState.MappingInv ∧ (∃ r, r ∈ (mappedState.dispatcher .mem).mapped) ∧
    (mappedState.dispatcher .mem).engine ≠ none ∧ (mappedState.dispatcher .io).engine = none ∧
    ∃ t, step mappedState = .next t := by
  refine ⟨⟨⟨by decide, by decide⟩, ⟨by decide, by decide⟩⟩,
    ⟨⟨nofun, fun h => absurd rfl h, fun _ => ⟨rfl, rfl⟩⟩, ⟨?_, fun _ => ⟨fun r => Iff.rfl, fun x => List.mem_flatMap⟩, nofun⟩⟩,
    ⟨_, List.mem_singleton.2 rfl⟩, nofun, rfl, _, rfl⟩
  intro r hr m hm
  cases List.mem_singleton.1 hr
  cases hm
  decide

theorem witness_busy :
    ((ataState busyDevice).device .master).regs.status &&& 0x80 ≠ 0 ∧
    ((ataState a0).device .master).regs.status &&& 0x80 = 0 ∧ (0x06 : Byte) &&& 0x04 ≠ 0 := by decide

theorem witness_busy_protects :
    (∃ t, exec (.ataDeviceControlW .master 0x04) (ataState busyDevice) = .next t) ∧
    (Instr.ataDeviceControlW .master 0x04).worksFor .master = false := ⟨⟨_, rfl⟩, by decide⟩

/-- A transfer of a chunk, before its last word and at it, with and without sectors left. -/
theorem witness_transfers :
    reading.xfer = .pioRead ∧ reading.regs.status &&& 0x80 = 0 ∧ reading.cursor + 2 < reading.length ∧
    ({ reading with cursor := 510 } : AtaDevice).length ≤ 510 + 2 ∧ reading.op = none ∧ reading.length / 512 < 2 ∧
    writing.xfer = .pioWrite ∧ writing.length ≤ writing.cursor + 2 ∧ writing.cursor + 1 < writing.length ∧
    ({ writing with cursor := 511 } : AtaDevice).cursor + 1 = writing.length ∧ writing.pio8 = false ∧
    a0.xfer ≠ .pioRead ∧ a0.xfer ≠ .pioWrite := by decide

theorem witness_sector_in_buffer :
    ((ataState reading).device .master).regs.status = 0x58 ∧ ((ataState reading).device .master).xfer = .pioRead ∧
    ((ataState reading).device .master).pio8 = false ∧ ((ataState reading).device .master).cursor = 0 ∧
    ((ataState reading).device .master).length = 512 ∧ ((ataState reading).device .master).op = none := by decide

/-- LBA and CHS requests, and each way a CHS request can be out of range. -/
theorem witness_sector_address :
    (addressed 1 0x3F 0x42 0x0F 0x40).regs.driveHead &&& 0x40 ≠ 0 ∧
    (addressed 1 63 1 0 0x0F).regs.driveHead &&& 0x40 = 0 ∧
    a0.geometry = none ∧ a0.disk.defaultGeometry = ⟨16, 63⟩ ∧ (addressed 1 63 1 0 0x0F).regs.sectorNumber.toNat ≤ 63 ∧
    (addressed 1 63 1 0 0x0F).regs.driveHead.toNat % 16 < 16 := by decide

theorem witness_commands_without_data :
    (addressed 0 0 0 0 0).regs.sectorCount = 0 ∧ (addressed 16 0 0 0 0).regs.sectorCount.toNat ≤ a0.disk.maxMultiple ∧
    a0.disk.maxMultiple < (addressed 17 0 0 0 0).regs.sectorCount.toNat ∧ knownOpcode 0x90 = false := by decide

/-- A request that ends at the last sector, one that ends past it, and multiple mode on and off. -/
theorem witness_transfer_commands :
    (addressed 1 0x3F 0x42 0x0F 0x40).sectorAddress (addressed 1 0x3F 0x42 0x0F 0x40).regs = some 999999 ∧
    999999 + 1 ≤ (addressed 1 0x3F 0x42 0x0F 0x40).disk.totalSectors ∧
    (addressed 2 0x3F 0x42 0x0F 0x40).disk.totalSectors < 999999 + 2 ∧
    (addressed 1 0x3F 0x42 0x0F 0x40).ioFaults.headD false = false ∧
    ({ a0 with ioFaults := [true] } : AtaDevice).ioFaults.headD false = true ∧ a0.multipleBlock = 0 ∧
    0 < ({ a0 with multipleBlock := 2 } : AtaDevice).multipleBlock := by decide

theorem witness_identify :
    ((ataState a0).device .master).disk.totalSectors < 4294967296 ∧
    ((ataState a0).device .master).disk.defaultGeometry.heads < 65536 ∧
    ((ataState a0).device .master).disk.defaultGeometry.sectorsPerTrack < 65536 ∧ 511 / 2 ∉ [1, 3, 6, 60, 61] := by decide

theorem witness_worker_kinds :
    ({ a0 with stopRequested := true } : AtaDevice).stopped = false ∧
    ({ a0 with resetRequested := true } : AtaDevice).stopRequested = false ∧
    ({ a0 with commandRequested := true } : AtaDevice).workerKind = some .command ∧
    ({ a0 with continueRequested := true, op := some ⟨.read, 8, 1, 1⟩ } : AtaDevice).workerKind = some .continueRead ∧
    8 + min 1 1 ≤ a0.disk.totalSectors ∧
    ({ writing with continueRequested := true } : AtaDevice).workerKind = some .continueWrite ∧
    writing.length / 512 = 1 ∧ 10 + 1 ≤ writing.disk.totalSectors := by decide

/-- A device whose worker has stopped, with a request still pending, as the host begins to destroy it again. -/
def stoppedState : State :=
  { ataState { a0 with stopped := true, commandRequested := true } with
    schedule := [.host], threads := [(.host, { program := [.teardown .master] })] }

theorem witness_worker_stopped :
    (stoppedState.device .master).stopped = true ∧ (stoppedState.thread (.worker .master)).follow = [] ∧
    (State.reset.device .master).stopped = false ∧ (∃ t, step stoppedState = .next t) ∧
    ∀ u, stoppedState.nextEvent ≠ some (.constructDevice .master, u) := by
  refine ⟨by decide, by decide, by decide, ⟨_, rfl⟩, fun u h => ?_⟩
  have h' : stoppedState.nextEvent.map Prod.fst = some (.constructDevice .master) := by rw [h]; rfl
  exact absurd h' (by decide)

/-! Two fair runs. In the first the worker takes the requested command, and from then on nothing is left to do; in the
second no device asks for anything and the PIT pulses its line. In both the PIT has every later turn. -/

/-- What comes from outside: the PIT has the next turn. -/
def pitNext (s : State) : State := { s with schedule := [.pit] }

theorem arrives_pitNext (s : State) : Arrives s (pitNext s) :=
  ⟨rfl, fun _ => rfl, fun _ => rfl, fun _ => ⟨[], (List.append_nil _).symm⟩⟩

/-- A device with a command requested, wired to no line, and its worker about to run. -/
def fairStart : State :=
  { ataState { a0 with
      commandRequested := true, regs := { RegFile.powerUp with status := 0xD0, command := 0x10 } } with
    schedule := [.worker .master], wiring := { muxLine := none, pitLine := none } }

/-- The first run. -/
def fairRun : Nat → State
  | 0 => fairStart
  | 1 => pitNext ((nextOf (step fairStart)).getD fairStart)
  | k + 2 => pitNext ((fairRun (k + 1)).beginStep .pit)

/-- No agent has anything to do, and the PIT has the next turn. -/
def Quiet (s : State) : Prop :=
  s.threads = [] ∧ s.wiring.pitLine = none ∧ s.master.workerKind = none ∧ s.slave.workerKind = none ∧
    s.nextAgent = .pit

theorem quiet_step {s : State} (h : Quiet s) : step s = .next (s.beginStep .pit) := by
  obtain ⟨ht, hp, -, -, ha⟩ := h
  simp [step, State.takeEvent, State.newOperation, State.thread, State.beginStep, ht, ha, threadOf, hp]

theorem fairRun_quiet : ∀ k, Quiet (fairRun (k + 1))
  | 0 => ⟨rfl, rfl, by decide, by decide, rfl⟩
  | k + 1 => ⟨(fairRun_quiet k).1, (fairRun_quiet k).2.1, (fairRun_quiet k).2.2.1, (fairRun_quiet k).2.2.2.1, rfl⟩

theorem witness_fair_run : FairRun fairRun ∧ ((fairRun 0).device .master).commandRequested = true := by
  refine ⟨⟨⟨fun k => ?_, fun d k h => ?_, fun d k h => ?_⟩, fun k => ⟨k + 1, k.le_succ, (fairRun_quiet k).2.2.2.2⟩⟩,
    by decide⟩
  · match k with
    | 0 => exact ⟨_, rfl, arrives_pitNext _⟩
    | k + 1 => exact ⟨_, quiet_step (fairRun_quiet k), arrives_pitNext _⟩
  · obtain ⟨-, -, hm, hs, -⟩ := fairRun_quiet k
    exact absurd (by cases d; exacts [hm, hs]) (h (k + 1) k.le_succ)
  · exact absurd (by unfold State.thread; rw [(fairRun_quiet k).1]; rfl) (h (k + 1) k.le_succ)

/-- The second run at step `k`: the PIT's line 0 of a PIC with line 0 masked and already requested, before the pulse or in
the middle of it. -/
def pitAt (asserted : Bool) (k : Nat) : State :=
  { State.reset with
    pics := [{ Pic.constructed noSecondaries with
      ocw1 := 0xFF, irr := 0x01, edge := if asserted then 0x01 else 0x00 }],
    wiring := { muxLine := none, pitLine := some { pic := 0, line := 0 } }, active := .pit, schedule := [.pit], clock := k,
    threads := [(.pit, { follow := if asserted then [.line 0 0 false] else [] })] }

/-- The second run. -/
def pitRun (k : Nat) : State := pitAt (k % 2 == 1) k

theorem pitAt_step (asserted : Bool) (k : Nat) :
    step (pitAt asserted k) = .next { pitAt (!asserted) (k + 1) with schedule := [] } := by
  cases asserted <;> rfl

theorem witness_pit_run :
    FairRun pitRun ∧ (pitRun 0).wiring.pitLine = some { pic := 0, line := 0 } ∧ ((pitRun 0).thread .pit).follow = [] ∧
    ((pitRun 1).thread .pit).follow = [.line 0 0 false] := by
  have hidle : ∀ k d, ((pitRun k).device d).workerKind = none := fun k d => by cases d <;> rfl
  refine ⟨⟨⟨fun k => ⟨_, pitAt_step _ _, ?_⟩, fun d k h => absurd (hidle k d) (h k k.le_refl), fun d k h => ?_⟩,
    fun k => ⟨k, k.le_refl, rfl⟩⟩, rfl, rfl, rfl⟩
  · have : (!(k % 2 == 1)) = ((k + 1) % 2 == 1) := by
      rcases Nat.mod_two_eq_zero_or_one k with h | h <;> simp [h, Nat.add_mod]
    rw [this]
    exact arrives_pitNext _
  · exact absurd (by cases d <;> rfl) (h k k.le_refl)

theorem witness_xtide_map :
    State.reset.xtAt 0 = .commandBlock 0 ∧ State.reset.xtAt 7 = .commandBlock 7 ∧ State.reset.xtAt 8 = .dataHigh ∧
    State.reset.xtAt 14 = .controlBlock ∧ State.reset.xtAt 9 = .unmapped := by decide

theorem witness_drive_head :
    (Drive.slave = if (0x50 : Byte) &&& 0x10 ≠ 0 then Drive.slave else Drive.master) ∧
    (Drive.master = if (0xE0 : Byte) &&& 0x10 ≠ 0 then Drive.slave else Drive.master) := by decide

/-- The invariants hold where a step can be taken. -/
theorem witness_invariants :
    midOperation.PicInv ∧ midOperation.DispatcherInv ∧ midOperation.ChannelInv ∧ midOperation.MemoryInv ∧
    ∃ t, step midOperation = .next t := by
  refine ⟨?_, ⟨⟨by decide, by decide⟩, ⟨by decide, by decide⟩⟩, ⟨?_, by decide⟩, ⟨by decide, ?_, ?_⟩, _, rfl⟩
  · intro q hq
    have : q = p1 := by simpa [midOperation, picState] using hq
    subst this
    exact ⟨by decide, by decide⟩
  · intro d
    cases d <;> exact ⟨by decide, ⟨Nat.le_refl _, Nat.zero_le _⟩, fun h => absurd rfl h, nofun, nofun⟩
  · intro d
    cases d <;> decide
  · intro d
    cases d <;> decide

/-- A device in a transfer of one sector meets the invariant of the channel. -/
theorem witness_transfer_invariant : reading.Inv :=
  ⟨by decide, ⟨by decide, by decide⟩, fun _ => ⟨by decide, by decide⟩, by decide, nofun⟩

/-- Two PICs, the second chained on line 2 of the first, as an agent waits. -/
def cascadeState : State := { State.reset with pics := [cascading, p1], schedule := [.engine 0] }

/-- The forest of R10 where a PIC is chained and a step can be taken. -/
theorem witness_topology : cascadeState.TopologyInv ∧ cascadeState.Chained 0 1 ∧ ∃ t, step cascadeState = .next t := by
  have hget : ∀ (p : Nat) (q : Pic) (n : Fin 8) (k : Nat), cascadeState.pics[p]? = some q → q.secondary.get n = some k →
      p = 0 ∧ n = 2 ∧ k = 1 := by
    intro p q n k hq hn
    match p with
    | 0 =>
      cases hq
      have h : ∀ m : Fin 8, cascading.secondary.get m = if m = 2 then some 1 else none := by decide
      rw [h] at hn
      split at hn
      · rename_i e; cases hn; exact ⟨rfl, e, rfl⟩
      · cases hn
    | 1 =>
      cases hq
      have h : ∀ m : Fin 8, p1.secondary.get m = none := by decide
      rw [h] at hn; cases hn
    | p + 2 => cases hq
  have hc : ∀ p k, cascadeState.Chained p k → p = 0 ∧ k = 1 := by
    rintro p k ⟨q, n, hq, hn⟩
    obtain ⟨h1, -, h2⟩ := hget p q n k hq hn
    exact ⟨h1, h2⟩
  refine ⟨⟨fun p k h => ?_, fun p p' k q q' n n' h1 h2 h3 h4 => ?_, fun p h => ?_⟩, ⟨cascading, 2, rfl, by decide⟩, _, rfl⟩
  · obtain ⟨-, rfl⟩ := hc p k h; decide
  · obtain ⟨rfl, rfl, -⟩ := hget p q n k h1 h3
    obtain ⟨rfl, rfl, -⟩ := hget p' q' n' k h2 h4
    exact ⟨rfl, rfl⟩
  · obtain ⟨b, h1, -⟩ := Relation.TransGen.head'_iff.1 h
    obtain ⟨c, -, h2⟩ := Relation.TransGen.tail'_iff.1 h
    have := (hc _ _ h1).1
    have := (hc _ _ h2).2
    omega

end Sys2Proof.Tests
end

/-! SUPPORT. The registers that BUSY protects (R40): what an operation of a device, other than a step of its worker, can do
to the register file. -/
namespace Sys2Proof.Machine

/-! ## Register files that agree but for status and command -/

/-- Every register of `r'` other than status and command is that of `r`. -/
def RegFile.AgreesButStatusCommand (r r' : RegFile) : Prop :=
  r' = { r with status := r'.status, command := r'.command }

theorem RegFile.AgreesButStatusCommand.refl (r : RegFile) : r.AgreesButStatusCommand r := rfl

theorem RegFile.AgreesButStatusCommand.trans {r₁ r₂ r₃ : RegFile} (h₁ : r₁.AgreesButStatusCommand r₂)
    (h₂ : r₂.AgreesButStatusCommand r₃) : r₁.AgreesButStatusCommand r₃ := by
  unfold RegFile.AgreesButStatusCommand at *
  rw [h₂, h₁]

/-! ## Bits of the status register -/

theorem AtaDevice.setStatus_regs_agree (dev : AtaDevice) (mask : Byte) :
    dev.regs.AgreesButStatusCommand (dev.setStatus mask).regs := rfl

theorem AtaDevice.clearStatus_regs_agree (dev : AtaDevice) (mask : Byte) :
    dev.regs.AgreesButStatusCommand (dev.clearStatus mask).regs := rfl

/-! ## The PIO transfer engine (R226 to R228) -/

theorem AtaDevice.endReadChunk_regs_agree (dev : AtaDevice) :
    dev.regs.AgreesButStatusCommand dev.endReadChunk.regs := by
  unfold AtaDevice.endReadChunk
  split
  · exact dev.clearStatus_regs_agree ataDrq
  · split
    · exact dev.clearStatus_regs_agree ataDrq
    · exact (dev.clearStatus_regs_agree ataDrq).trans (AtaDevice.setStatus_regs_agree _ ataBusy)

theorem AtaDevice.endWriteChunk_regs_agree (dev : AtaDevice) :
    dev.regs.AgreesButStatusCommand dev.endWriteChunk.regs :=
  (dev.clearStatus_regs_agree ataDrq).trans (AtaDevice.setStatus_regs_agree _ ataBusy)

theorem AtaDevice.readData_regs_agree (d : Drive) (dev : AtaDevice) :
    dev.regs.AgreesButStatusCommand (AtaDevice.readData d dev).dev.regs := by
  unfold AtaDevice.readData
  split
  · dsimp only
    split
    · exact AtaDevice.endReadChunk_regs_agree _
    · exact .refl _
  · exact .refl _

theorem AtaDevice.writeData_regs_agree (dev : AtaDevice) (v : Half) :
    dev.regs.AgreesButStatusCommand (dev.writeData v).dev.regs := by
  unfold AtaDevice.writeData
  split
  · dsimp only
    split
    · exact AtaDevice.endWriteChunk_regs_agree _
    · exact .refl _
  · exact .refl _

/-! ## Accesses (R213 to R223) -/

theorem AtaDevice.busy_iff (dev : AtaDevice) : dev.busy = true ↔ dev.regs.status &&& 0x80 ≠ 0 := by
  simp [AtaDevice.busy, ataBusy]

/-- The BUSY gate (R213, R218): only the data register takes a write while BUSY is set. -/
theorem AtaDevice.writeIndex_regs_agree_of_busy {dev : AtaDevice} {k : Nat} {v : Half} {r : DeviceReply}
    (hbusy : dev.busy = true) (h : dev.writeIndex k v = .next r) :
    dev.regs.AgreesButStatusCommand r.dev.regs := by
  unfold AtaDevice.writeIndex AtaDevice.writeCommand at h
  simp only [hbusy, if_true] at h
  split_ifs at h <;> cases h
  · exact .refl _
  · exact dev.writeData_regs_agree v
  · exact .refl _

/-- A read changes no register but the status, and that at the end of a chunk (R226). -/
theorem AtaDevice.readIndex_regs_agree (d : Drive) (dev : AtaDevice) (k : Nat) :
    dev.regs.AgreesButStatusCommand (AtaDevice.readIndex d dev k).dev.regs := by
  unfold AtaDevice.readIndex
  split_ifs
  · exact .refl _
  · exact .refl _
  · exact .refl _
  · exact AtaDevice.readData_regs_agree d dev
  · exact .refl _

theorem AtaDevice.deviceControl_regs_agree (dev : AtaDevice) (b : Byte) :
    dev.regs.AgreesButStatusCommand (dev.deviceControl b).regs := by
  unfold AtaDevice.deviceControl
  dsimp only
  split
  · exact .refl _
  · exact AtaDevice.setStatus_regs_agree _ ataBusy

/-! ## Every instruction -/

/-- What an instruction other than a step of its worker makes of a BUSY device. -/
theorem DeviceChange.regs_agree_of_busy {i : Instr} {d : Drive} {dev dev' : AtaDevice} (h : DeviceChange i d dev dev')
    (hwork : i.worksFor d = false) (hbusy : dev.busy = true) : dev.regs.AgreesButStatusCommand dev'.regs := by
  have not_worker : i.worksFor d ≠ true := by simp [hwork]
  cases h with
  | write k v r hw => exact AtaDevice.writeIndex_regs_agree_of_busy hbusy hw
  | read k => exact AtaDevice.readIndex_regs_agree d dev k
  | control b => exact dev.deviceControl_regs_agree b
  | command b rec e hi => exact absurd hi not_worker
  | stop hi => exact absurd hi not_worker
  | reset hi => exact absurd hi not_worker
  | continueRead op dev' hi => exact absurd hi not_worker
  | continueWrite op dev' hi => exact absurd hi not_worker

/-- Settles O33: by `exec_effect` a device stays as it was or changes in one of the ways of `DeviceChange`, and each of
these that is not its worker's respects the BUSY gate. -/
theorem busyProtectsRegisters : Obligations.BusyProtectsRegisters := by
  intro i s t d h hstatus hwork
  have hbusy : (s.device d).busy = true := (AtaDevice.busy_iff _).2 hstatus
  obtain hsame | hchange := (exec_effect h).devices d
  · rw [hsame]
  · exact hchange.regs_agree_of_busy hwork hbusy

end Sys2Proof.Machine

/-! SUPPORT. The bytes of a datum and the lanes of a split access (R63, R131 to R133): a datum is known by its eight bytes,
and masks, split data and split reads all put bytes at byte positions. -/
namespace Sys2Proof.Machine

/-! ## The bytes of a datum (R63) -/

theorem getLsbD_quadByte (v : Quad) (i k : Nat) :
    (quadByte v i).getLsbD k = (decide (k < 8) && v.getLsbD (8 * i + k)) := by
  simp [quadByte]

theorem quad_ext {u v : Quad} (h : ∀ i, i < 8 → quadByte u i = quadByte v i) : u = v := by
  refine BitVec.eq_of_getLsbD_eq fun n hn => ?_
  have hbit : (quadByte u (n / 8)).getLsbD (n % 8) = (quadByte v (n / 8)).getLsbD (n % 8) := by
    rw [h (n / 8) (by omega)]
  simpa only [getLsbD_quadByte, Nat.mod_lt n (show 0 < 8 by decide), Nat.div_add_mod, decide_true, Bool.true_and]
    using hbit

@[simp] theorem quadByte_zero (i : Nat) : quadByte 0 i = 0 := by
  simp [quadByte]

theorem quadByte_or (u v : Quad) (i : Nat) : quadByte (u ||| v) i = quadByte u i ||| quadByte v i := by
  refine BitVec.eq_of_getLsbD_eq fun k _ => ?_
  simp [getLsbD_quadByte, Bool.and_or_distrib_left]

theorem quadByte_byteAtLane (b : Byte) (j : Nat) {i : Nat} (hi : i < 8) :
    quadByte (byteAtLane b j) i = if i = j then b else 0 := by
  refine BitVec.eq_of_getLsbD_eq fun k hk => ?_
  have hbit : (quadByte (byteAtLane b j) i).getLsbD k =
      (decide (8 * j ≤ 8 * i + k) && b.getLsbD (8 * i + k - 8 * j)) := by
    have hin : 8 * i + k < 64 := by omega
    have hsub : 8 * i + k - 8 * j < 64 := by omega
    rw [getLsbD_quadByte, byteAtLane, BitVec.getLsbD_shiftLeft]
    simp [hk, hin, hsub, ← decide_not]
  rw [hbit]
  split
  · next h => simp [h]
  · next h =>
    obtain hlt | hgt := Nat.lt_or_gt_of_ne h
    · have : ¬ 8 * j ≤ 8 * i + k := by omega
      simp [this]
    · have : 8 ≤ 8 * i + k - 8 * j := by omega
      simp [BitVec.getLsbD_of_ge _ _ this]

/-- A datum of `sz` bytes has nothing above them. -/
theorem quadByte_of_dataOk {sz : Nat} {v : Quad} (h : dataOk sz v = true) {i : Nat} (hi : sz ≤ i) : quadByte v i = 0 := by
  have hlt : v.toNat < 2 ^ (8 * sz) := by simpa [dataOk] using h
  refine BitVec.eq_of_getLsbD_eq fun k _ => ?_
  have hbit : v.getLsbD (8 * i + k) = false :=
    Nat.testBit_lt_two_pow (hlt.trans_le (Nat.pow_le_pow_right (by decide) (by omega)))
  simp [getLsbD_quadByte, hbit]

/-! ## Bytes put at byte positions -/

/-- Byte `f i` at each byte position `i` of the list: the form that masks, split data and split reads share. -/
def orLanes (f : Nat → Byte) (l : List Nat) : Quad := l.foldl (fun m i => m ||| byteAtLane (f i) i) 0

/-- A position that occurs more than once does not matter, because `|||` is idempotent. -/
theorem quadByte_foldl_or (f : Nat → Byte) (l : List Nat) (acc : Quad) {i : Nat} (hi : i < 8) :
    quadByte (l.foldl (fun m j => m ||| byteAtLane (f j) j) acc) i = quadByte acc i ||| if i ∈ l then f i else 0 := by
  induction l generalizing acc with
  | nil => simp
  | cons j l ih =>
    rw [List.foldl_cons, ih, quadByte_or, quadByte_byteAtLane _ _ hi]
    by_cases hj : i = j
    · subst hj
      by_cases hl : i ∈ l <;> simp [hl, BitVec.or_assoc]
    · simp [hj]

theorem quadByte_orLanes (f : Nat → Byte) (l : List Nat) {i : Nat} (hi : i < 8) :
    quadByte (orLanes f l) i = if i ∈ l then f i else 0 :=
  (quadByte_foldl_or f l 0 hi).trans (by rw [quadByte_zero]; exact BitVec.zero_or)

/-! ## The lanes of a word (R131, R132) -/

theorem mem_touchedLanes {a sz w x j : Nat} : j ∈ touchedLanes a sz w x ↔ j < w ∧ a ≤ x + j ∧ x + j < a + sz := by
  simp [touchedLanes, laneTouched]

theorem laneMask_touched {a sz w x j : Nat} (hj8 : j < 8) (hj : j ∈ touchedLanes a sz w x) :
    (laneMask a sz w x).getLsbD (8 * j) = true := by
  have hbyte : quadByte (laneMask a sz w x) j = 0xFF := (quadByte_orLanes _ _ hj8).trans (if_pos hj)
  have hbit := getLsbD_quadByte (laneMask a sz w x) j 0
  rw [hbyte] at hbit
  simpa using hbit.symm

theorem quadByte_laneData {a sz w x j : Nat} (v : Quad) (hj8 : j < 8) (hj : j ∈ touchedLanes a sz w x) :
    quadByte (laneData a sz w v x) j = quadByte v (x + j - a) :=
  (quadByte_orLanes _ _ hj8).trans (if_pos hj)

/-! ## The bytes that a split access covers -/

/-- The word that holds byte `i` of an access is one of its words (R131). -/
theorem wordOfByte_mem_splitWords {sz w i : Nat} (a : Nat) (hw : 0 < w) (hi : i < sz) :
    (a + i) / w * w ∈ splitWords a sz w := by
  have hfirst : firstWord a w = a / w * w := by
    unfold firstWord; have := Nat.div_add_mod' a w; omega
  have hlast : lastWord a sz w = (a + sz - 1) / w * w := by
    unfold lastWord; have := Nat.div_add_mod' (a + sz - 1) w; omega
  have hlo : a / w ≤ (a + i) / w := Nat.div_le_div_right (by omega)
  have hhi : (a + i) / w ≤ (a + sz - 1) / w := Nat.div_le_div_right (by omega)
  unfold splitWords
  rw [hfirst, hlast, ← Nat.sub_mul, Nat.mul_div_cancel _ hw, List.mem_map]
  refine ⟨(a + i) / w - a / w, List.mem_range.2 (by omega), ?_⟩
  rw [← Nat.add_mul, Nat.add_sub_cancel' hlo]

/-- The byte offsets of a split access in the order in which its words touch them. -/
def splitOffsets (a sz w : Nat) : List Nat :=
  (splitWords a sz w).flatMap fun x => (touchedLanes a sz w x).map fun j => x + j - a

/-- The touched lanes of the words are exactly the bytes of the access. -/
theorem mem_splitOffsets {a sz w i : Nat} (hw : 0 < w) : i ∈ splitOffsets a sz w ↔ i < sz := by
  simp only [splitOffsets, List.mem_flatMap, List.mem_map]
  constructor
  · rintro ⟨x, -, j, hj, rfl⟩
    have := mem_touchedLanes.1 hj
    omega
  · intro hi
    have hsplit : (a + i) / w * w + (a + i) % w = a + i := Nat.div_add_mod' (a + i) w
    refine ⟨_, wordOfByte_mem_splitWords a hw hi, (a + i) % w, mem_touchedLanes.2 ⟨Nat.mod_lt _ hw, ?_, ?_⟩, ?_⟩ <;> omega

/-! ## The split round trip (R146) -/

/-- A split read whose words hold the bytes of `v` in the touched lanes puts those bytes at the offsets of the access. -/
theorem assembleRead_eq_orLanes {a sz w : Nat} {v : Quad} {word : Nat → Quad}
    (h : ∀ x ∈ splitWords a sz w, ∀ j ∈ touchedLanes a sz w x, quadByte (word x) j = quadByte v (x + j - a)) :
    assembleRead a sz w ((splitReadCalls a sz w).map fun c => (c.1, word c.1)) =
      orLanes (quadByte v) (splitOffsets a sz w) := by
  simp only [assembleRead, splitReadCalls, orLanes, splitOffsets, List.foldl_map, List.foldl_flatMap]
  refine List.foldl_ext _ _ _ fun acc x hx => List.foldl_ext _ _ _ fun acc j hj => ?_
  rw [h x hx j hj]

/-- Settles O25: byte `i` of the value is written to one lane of one word and read back from there to position `i`
(the derivation in R146), and the value has no byte above its size. -/
theorem splitRoundTrip : Obligations.SplitRoundTrip := by
  intro a sz w v word _ hw hw8 hdata hword
  have hlane : ∀ x ∈ splitWords a sz w, ∀ j ∈ touchedLanes a sz w x, quadByte (word x) j = quadByte v (x + j - a) := by
    intro x hx j hj
    have hjw : j < w := (mem_touchedLanes.1 hj).1
    have hj8 : j < 8 := hjw.trans_le hw8
    calc quadByte (word x) j
        = quadByte (laneData a sz w v x) j := hword _ (List.mem_map_of_mem hx) j hjw (laneMask_touched hj8 hj)
      _ = quadByte v (x + j - a) := quadByte_laneData v hj8 hj
  rw [assembleRead_eq_orLanes hlane]
  refine quad_ext fun i hi => ?_
  rw [quadByte_orLanes _ _ hi]
  split
  · rfl
  · next hout => exact (quadByte_of_dataOk hdata (Nat.le_of_not_lt (mt (mem_splitOffsets hw).2 hout))).symm

end Sys2Proof.Machine

/-! SUPPORT. The handshake words of the data port (R163, R165, R166) and the line calls (R178, R179): what each stores, and
what two pulses, or two levels, of one line leave in IRR (R189). -/
namespace Sys2Proof.Machine

/-! ## The handshake words (R163, R165, R166) -/

theorem State.withPic_of_some {s : State} {p : Nat} {q : Pic} (hq : s.pics[p]? = some q) (k : Pic → Result) :
    s.withPic p k = k q := by
  simp only [State.withPic, hq]

/-- An instruction that only stores a PIC answers nothing and touches nothing else. -/
theorem StoresPic.of_exec {i : Instr} {s : State} {p : Nat} {q' : Pic} (h : exec i s = .next (s.setPic p q')) :
    StoresPic i s p q' [] [] :=
  ⟨_, h, State.setPic_spec (.refl s) (.refl s) (.refl s)⟩

theorem Pic.afterIcw3_eq (q : Pic) :
    q.afterIcw3 = if q.icw1 &&& 0x01 ≠ 0 then .waitingForIcw4 else .idle := by
  simp only [Pic.afterIcw3, icw1Ic4, ne_eq, ite_not]

theorem Pic.takeIcw2_eq (q : Pic) (b : Byte) :
    q.takeIcw2 b =
      { q with
        icw2 := b,
        fsm := if q.icw1 &&& 0x02 = 0 then .waitingForIcw3
          else if q.icw1 &&& 0x01 ≠ 0 then .waitingForIcw4 else .idle } := by
  rw [← Pic.afterIcw3_eq]; rfl

theorem Pic.takeIcw3_eq (q : Pic) (b : Byte) :
    q.takeIcw3 b = { q with icw3 := b, fsm := if q.icw1 &&& 0x01 ≠ 0 then .waitingForIcw4 else .idle } := by
  rw [← Pic.afterIcw3_eq]; rfl

section DataPortWrite
variable {s : State} {p : Nat} {q : Pic} (b : Byte) (hq : s.pics[p]? = some q)
include hq

theorem State.picDataWrite_waitingForIcw2 (hf : q.fsm = .waitingForIcw2) :
    s.picDataWrite p b = .next (s.setPic p (q.takeIcw2 b)) := by
  rw [State.picDataWrite, State.withPic_of_some hq, hf]

theorem State.picDataWrite_waitingForIcw3 (hf : q.fsm = .waitingForIcw3) :
    s.picDataWrite p b = .next (s.setPic p (q.takeIcw3 b)) := by
  rw [State.picDataWrite, State.withPic_of_some hq, hf]

theorem State.picDataWrite_waitingForIcw4 (hf : q.fsm = .waitingForIcw4) :
    s.picDataWrite p b = .next (s.setPic p (q.takeIcw4 b)) := by
  rw [State.picDataWrite, State.withPic_of_some hq, hf]

end DataPortWrite

/-- Settles O7, by the state the command machine waits in. -/
theorem dataPortWritesAdvanceHandshake : Obligations.DataPortWritesAdvanceHandshake := by
  intro s p q b hq
  refine ⟨fun hf => ?icw2, fun hf => ?icw3, fun hf => ?icw4⟩
  case icw2 => rw [← Pic.takeIcw2_eq]; exact .of_exec (State.picDataWrite_waitingForIcw2 b hq hf)
  case icw3 => rw [← Pic.takeIcw3_eq]; exact .of_exec (State.picDataWrite_waitingForIcw3 b hq hf)
  case icw4 => exact .of_exec (State.picDataWrite_waitingForIcw4 b hq hf)

/-! ## Line calls (R178, R179) -/

theorem setLineBit_getLsbD_self (r : Byte) (n : Fin 8) (a : Bool) : (setLineBit r n a).getLsbD n.val = a := by
  rw [setLineBit_getLsbD, if_pos rfl]

/-- Setting a line's bit overrides what the bit was set to before. -/
@[simp] theorem setLineBit_setLineBit (r : Byte) (n : Fin 8) (a b : Bool) :
    setLineBit (setLineBit r n a) n b = setLineBit r n b := by
  refine byte_ext fun k => ?_
  simp only [setLineBit_getLsbD]
  split <;> rfl

@[simp] theorem Pic.settled_irr (q : Pic) : q.settled.irr = q.irr := rfl
@[simp] theorem Pic.settled_edge (q : Pic) : q.settled.edge = q.edge := rfl
@[simp] theorem Pic.levelLine_irr (q : Pic) (n : Fin 8) (a : Bool) : (q.levelLine n a).irr = setLineBit q.irr n a := rfl
@[simp] theorem Pic.edgeLine_edge (q : Pic) (n : Fin 8) (a : Bool) : (q.edgeLine n a).edge = setLineBit q.edge n a := rfl
@[simp] theorem Pic.edgeLine_false_irr (q : Pic) (n : Fin 8) : (q.edgeLine n false).irr = q.irr := rfl

/-- A rising edge: the line is asserted while its edge latch is clear. -/
theorem Pic.edgeLine_true_irr {q : Pic} {n : Fin 8} (hlatch : q.edge.getLsbD n.val = false) :
    (q.edgeLine n true).irr = setLineBit q.irr n true := by
  simp only [Pic.edgeLine, hlatch, Bool.not_false, Bool.and_self, if_true]

/-- An instruction that only stores a PIC and updates its output answers nothing and touches nothing else. -/
theorem CompletesPic.of_exec {i : Instr} {s : State} {p : Nat} {q q' : Pic} (hq : s.pics[p]? = some q)
    (hout : q'.out = q.out) (hsec : q'.secondary = q.secondary) (h : exec i s = .next (s.commitPic p q')) :
    CompletesPic i s p q q' [] [] :=
  ⟨_, h, State.commitPic_spec hq hout hsec (.refl s) (.refl s) (.refl s)⟩

/-- An operation that updates the output leaves the PIC it made, settled, in its place. -/
theorem CompletesPic.next_pic {i : Instr} {s : State} {p : Nat} {q q' : Pic} {rest : List Event} {bytes : List Byte}
    (hq : s.pics[p]? = some q) (h : CompletesPic i s p q q' rest bytes) :
    ∃ t, exec i s = .next t ∧ t.pics[p]? = some q'.settled := by
  obtain ⟨t, hexec, hupd, -, -⟩ := h
  obtain ⟨hlt, -⟩ := List.getElem?_eq_some_iff.1 hq
  exact ⟨t, hexec, by rw [hupd.pics, List.getElem?_set_self hlt]⟩

section LineCalls
variable {s : State} {p : Nat} {q : Pic} {n : Fin 8} (hq : s.pics[p]? = some q)
include hq

/-- A call on a level-triggered line stores what R178 says and updates the output. -/
theorem lineLevel_completes (hl : q.LevelTriggered n) (a : Bool) :
    CompletesPic (.lineLevel p n a) s p q (q.levelLine n a) [] [] := by
  refine .of_exec hq rfl rfl ?_
  show s.setLine p n a = _
  rw [State.setLine, State.withPic_of_some hq, if_pos ((q.level_iff n).2 hl)]

/-- A call on an edge-triggered line stores what R179 says and updates the output. -/
theorem lineEdge_completes (he : ¬q.LevelTriggered n) (a : Bool) :
    CompletesPic (.lineEdge p n a) s p q (q.edgeLine n a) [] [] := by
  refine .of_exec hq rfl rfl ?_
  show s.setLine p n a = _
  rw [State.setLine, State.withPic_of_some hq, if_neg (mt (q.level_iff n).1 he)]

/-- One pulse of an edge-triggered line whose edge latch is clear requests the line, and leaves the line edge-triggered
with its latch clear, as it was before the pulse. -/
theorem lineEdge_pulse (he : ¬q.LevelTriggered n) (hlatch : q.edge.getLsbD n.val = false) :
    ∃ t q', runRows [.lineEdge p n true, .lineEdge p n false] s = .next t ∧ t.pics[p]? = some q' ∧
      ¬q'.LevelTriggered n ∧ q'.edge.getLsbD n.val = false ∧ q'.irr = setLineBit q.irr n true := by
  obtain ⟨t, hrise, ht⟩ := (lineEdge_completes hq he true).next_pic hq
  obtain ⟨u, hfall, hu⟩ := (lineEdge_completes (n := n) ht he false).next_pic ht
  refine ⟨u, _, by simp only [runRows, hrise, hfall], hu, he, ?_, ?_⟩
  · rw [Pic.settled_edge, Pic.edgeLine_edge, setLineBit_getLsbD_self]
  · rw [Pic.settled_irr, Pic.edgeLine_false_irr, Pic.settled_irr, Pic.edgeLine_true_irr hlatch]

/-- A call on a level-triggered line leaves the line level-triggered, its IRR bit at the level of the call. -/
theorem lineLevel_tracks (hl : q.LevelTriggered n) (a : Bool) :
    ∃ t q', exec (.lineLevel p n a) s = .next t ∧ t.pics[p]? = some q' ∧ q'.LevelTriggered n ∧
      q'.irr.getLsbD n.val = a := by
  obtain ⟨t, hexec, ht⟩ := (lineLevel_completes hq hl a).next_pic hq
  exact ⟨t, _, hexec, ht, hl, by rw [Pic.settled_irr, Pic.levelLine_irr, setLineBit_getLsbD_self]⟩

end LineCalls

/-- Settles O20: a pulse, and a level, leave the line in the same case, so that the lemma about one applies to the next;
the second pulse sets an IRR bit that is already set. -/
theorem edgeAgainstLevel : Obligations.EdgeAgainstLevel := by
  intro s p q n hq
  refine ⟨fun he hlatch => ?edge, fun hl a b => ?level⟩
  case edge =>
    obtain ⟨t, q', hrun, ht, he', hlatch', hirr⟩ := lineEdge_pulse hq he hlatch
    obtain ⟨u, q'', hrun', hu, -, -, hirr'⟩ := lineEdge_pulse ht he' hlatch'
    exact ⟨t, u, q', q'', hrun, hrun', ht, hu, by rw [hirr, setLineBit_getLsbD_self],
      by rw [hirr', hirr, setLineBit_setLineBit]⟩
  case level =>
    obtain ⟨t, q', hexec, ht, hl', ha⟩ := lineLevel_tracks hq hl a
    obtain ⟨u, q'', hexec', hu, -, hb⟩ := lineLevel_tracks ht hl' b
    exact ⟨t, u, q', q'', hexec, hexec', ht, hu, ha, hb⟩

end Sys2Proof.Machine

/-! SUPPORT. A command-block access seen from the bus (R213 to R228): the row it decodes to is the access itself, and it
touches its own device only. The demux forwards such an access (R271), and the XTIDE window makes the demux's accesses
(R285 to R287). -/
namespace Sys2Proof.Machine

/-! ## The row of a command-block access -/

/-- A command-block read decodes to a row whose meaning is that read, whatever the device's state. -/
theorem exec_decodeAtaRead (c : Ctx) (d : Drive) (i : Nat) (s : State) :
    exec (decodeAtaRead c d i) s = s.ataRead d i := by
  unfold decodeAtaRead
  split
  case isTrue => rfl
  split
  case isTrue hstatus => subst hstatus; rfl
  split
  case isTrue => rfl
  split
  case h_1 => split <;> rfl
  case h_7 =>
    simp only [imp_false] at *
    obtain rfl : i = 6 := by omega
    rfl
  all_goals rfl

/-- A byte written at an index 1 to 7 decodes to a row whose meaning is the write of that byte. -/
theorem exec_decodeAtaRegisterWrite (c : Ctx) (d : Drive) {i : Nat} (hlo : i ≠ 0) (hhi : i ≤ 7) (b : Byte) (s : State) :
    exec (decodeAtaRegisterWrite c d i b) s = s.ataWrite d i (byteOnBus b) := by
  unfold decodeAtaRegisterWrite
  split
  case isTrue hcommand => subst hcommand; rfl
  split
  case isTrue => rfl
  split
  case h_6 =>
    simp only [imp_false] at *
    obtain rfl : i = 6 := by omega
    rfl
  all_goals rfl

/-- The same for a write; a datum too wide for its register is no row at all. -/
theorem exec_of_decodeAtaWrite {c : Ctx} {d : Drive} {i : Nat} {v : Half} {j : Instr} (s : State)
    (h : decodeAtaWrite c d i v = .row j) : exec j s = s.ataWrite d i v := by
  unfold decodeAtaWrite at h
  split_ifs at h with hbad hdata hxfer hfits <;> cases h
  · rfl
  · subst hdata; rfl
  · subst hdata; rfl
  · calc exec (decodeAtaRegisterWrite c d i (lowByte v)) s
        = s.ataWrite d i (byteOnBus (lowByte v)) := exec_decodeAtaRegisterWrite c d hdata (by omega) _ s
      _ = s.ataWrite d i v := by rw [byteOnBus_lowByte v hfits]

/-! ## An access of the device keeps its backing store -/

theorem AtaDevice.endReadChunk_store (dev : AtaDevice) : dev.endReadChunk.store = dev.store := by
  unfold AtaDevice.endReadChunk
  split
  · rfl
  · split <;> rfl

theorem AtaDevice.readData_store (d : Drive) (dev : AtaDevice) : (AtaDevice.readData d dev).dev.store = dev.store := by
  unfold AtaDevice.readData
  split
  · dsimp only
    split
    · exact AtaDevice.endReadChunk_store _
    · rfl
  · rfl

theorem AtaDevice.writeData_store (dev : AtaDevice) (v : Half) : (dev.writeData v).dev.store = dev.store := by
  unfold AtaDevice.writeData
  split
  · dsimp only
    split <;> rfl
  · rfl

theorem AtaDevice.readIndex_store (d : Drive) (dev : AtaDevice) (i : Nat) :
    (AtaDevice.readIndex d dev i).dev.store = dev.store := by
  unfold AtaDevice.readIndex
  split_ifs
  · rfl
  · rfl
  · rfl
  · exact AtaDevice.readData_store d dev
  · rfl

/-- Only a command write while BUSY is refused (R218); every other write completes. -/
theorem AtaDevice.writeIndex_completes {dev : AtaDevice} {i : Nat} (v : Half) (h : i ≠ 7 ∨ dev.busy = false) :
    ∃ r, dev.writeIndex i v = .next r ∧ r.dev.store = dev.store := by
  unfold AtaDevice.writeIndex
  split_ifs with hbad hdata hcommand hbusy
  · exact ⟨_, rfl, rfl⟩
  · exact ⟨_, rfl, dev.writeData_store v⟩
  · have hidle : dev.busy = false := h.resolve_left (not_not_intro hcommand)
    exact ⟨_, by rw [AtaDevice.writeCommand, if_neg (by simp [hidle])], rfl⟩
  · exact ⟨_, rfl, rfl⟩
  · exact ⟨_, rfl, rfl⟩

/-! ## An access completes and touches its device only -/

theorem State.finishAccess_frame {s : State} {d : Drive} {r : DeviceReply} (h : r.dev.store = (s.device d).store) :
    DeviceFrame d s (s.finishAccess d r) :=
  (State.commitDevice_frame (s.answer_quiet _ _) (s.answer_continues _ _) (s.answer_answered _ _) h).2.2

theorem State.ataRead_completes (s : State) (d : Drive) (i : Nat) :
    ∃ t, s.ataRead d i = .next t ∧ DeviceFrame d s t :=
  ⟨_, rfl, State.finishAccess_frame (AtaDevice.readIndex_store d (s.device d) i)⟩

theorem State.ataWrite_completes {s : State} {d : Drive} {i : Nat} (v : Half)
    (h : i ≠ 7 ∨ (s.device d).regs.status &&& 0x80 = 0) :
    ∃ t, s.ataWrite d i v = .next t ∧ DeviceFrame d s t := by
  have hgate : i ≠ 7 ∨ (s.device d).busy = false :=
    h.imp_right fun hclear => Bool.eq_false_iff.2 fun hbusy => (AtaDevice.busy_iff _).1 hbusy hclear
  obtain ⟨r, hwrite, hstore⟩ := AtaDevice.writeIndex_completes v hgate
  exact ⟨_, by rw [State.ataWrite, hwrite, State.continueAccess], State.finishAccess_frame hstore⟩

/-! ## The demux (R271, R272) -/

theorem exec_muxForward_read (s : State) (i : Nat) : exec (.muxForward i .read) s = s.ataRead s.mux.selected i := rfl

theorem exec_muxForward_write {i : Nat} (hi : i ≠ 6) (s : State) (v : Half) :
    exec (.muxForward i (.write v)) s = s.ataWrite s.mux.selected i v :=
  if_neg hi

/-- Settles O49: the demux's access is the access of the selected device, and so is the row that access decodes to. -/
theorem demuxForwardsToSelected : Obligations.DemuxForwardsToSelected := by
  intro s i
  refine ⟨fun j hrow => ?readRow, s.ataRead_completes _ i, fun v hi => ⟨fun j hrow => ?writeRow, fun hgate => ?write⟩⟩
  case readRow => cases hrow; exact (exec_decodeAtaRead _ _ i s).symm
  case writeRow => rw [exec_muxForward_write hi]; exact (exec_of_decodeAtaWrite s hrow).symm
  case write => rw [exec_muxForward_write hi]; exact State.ataWrite_completes v hgate

/-! ## The XTIDE window (R285, R286, R287) -/

/-- A register other than the data register answers one byte (R217, R220, R221). -/
theorem AtaDevice.readIndex_register_bytes (d : Drive) (dev : AtaDevice) {i : Nat} (hlo : i ≠ 0) (hhi : i ≤ 7) :
    ∃ b, (AtaDevice.readIndex d dev i).bytes = [b] := by
  unfold AtaDevice.readIndex
  rw [if_neg (by omega)]
  split_ifs <;> exact ⟨_, rfl⟩

/-- The low byte of a one-byte answer is the answer, so returning only the low byte changes nothing. -/
theorem DeviceReply.lowByte_word {r : DeviceReply} {b : Byte} (h : r.bytes = [b]) : [lowByte r.word] = r.bytes := by
  simp [DeviceReply.word, h]

theorem State.xtReadLow_eq {s : State} {i : Nat} (hlo : i ≠ 0) (hhi : i ≤ 7) :
    .next (s.xtReadLow i) = s.ataRead s.mux.selected i := by
  obtain ⟨b, hb⟩ := AtaDevice.readIndex_register_bytes s.mux.selected (s.device s.mux.selected) hlo hhi
  unfold State.xtReadLow State.ataRead
  simp only [DeviceReply.lowByte_word hb]

/-- Drive/Head completes at either device (R213, R216): BUSY drops the byte, it refuses nothing. -/
theorem State.muxDriveHead_completes (s : State) (b : Byte) : ∃ t, s.muxDriveHead b = .next t := by
  obtain ⟨t, ht, -⟩ := State.ataWrite_completes (s := s.selectDevice (selectedDrive b)) (d := selectedDrive b)
    (byteOnBus b) (.inl (by decide : (6 : Nat) ≠ 7))
  exact ⟨t, ht⟩

section Mapped
variable {s : State} {o : Nat}

theorem exec_xtReg_read {i : Fin 8} (hi : i ≠ 0) (hmap : s.xtAt o = .commandBlock i) :
    exec (.xtReg o .read) s = exec (.muxForward i.val .read) s := by
  show s.xtRead o = _
  rw [State.xtRead, hmap]
  simp only [if_neg hi]
  exact State.xtReadLow_eq (Fin.val_ne_of_ne hi) (Nat.le_of_lt_succ i.isLt)

theorem exec_xtReg_write {i : Fin 8} (hi : i ≠ 0) (hmap : s.xtAt o = .commandBlock i) (b : Byte) :
    exec (.xtReg o (.write b)) s =
      exec (if i = 6 then .muxDriveHeadW b else .muxForward i.val (.write (b.zeroExtend 16))) s := by
  show s.xtWrite o b = _
  rw [State.xtWrite, hmap]
  simp only [if_neg hi]
  split
  · next h => subst h; exact congrArg s.muxDriveHead (lowByte_byteOnBus b)
  · rfl

theorem exec_xtReg_write_completes {i : Fin 8} (hi : i ≠ 0) (hmap : s.xtAt o = .commandBlock i) (b : Byte)
    (hgate : i ≠ 7 ∨ (s.device s.mux.selected).regs.status &&& 0x80 = 0) :
    ∃ t, exec (.xtReg o (.write b)) s = .next t := by
  rw [exec_xtReg_write hi hmap]
  split
  · exact s.muxDriveHead_completes b
  · next h6 =>
    obtain ⟨t, ht, -⟩ := State.ataWrite_completes (b.zeroExtend 16) (hgate.imp_left Fin.val_ne_of_ne)
    exact ⟨t, (exec_muxForward_write (Fin.val_ne_of_ne h6) s _).trans ht⟩

theorem exec_xtControl_read (hmap : s.xtAt o = .controlBlock) : exec (.xtControl o .read) s = exec .muxAltStatusR s := by
  show s.xtRead o = _
  rw [State.xtRead, hmap]
  rfl

theorem exec_xtControl_write (hmap : s.xtAt o = .controlBlock) (b : Byte) :
    exec (.xtControl o (.write b)) s = exec (.muxDeviceControlW b) s := by
  show s.xtWrite o b = _
  rw [State.xtWrite, hmap]
  rfl

/-- An instruction that only answers completes quietly. -/
theorem CompletesQuietly.of_answer {i : Instr} {bytes : List Byte} {ds : List Diagnostic}
    (h : exec i s = .next (s.answer bytes ds)) : CompletesQuietly i s [] bytes ds :=
  ⟨_, h, s.answer_continues _ _, s.answer_answered _ _, s.answer_quiet _ _⟩

theorem xtUnmapped_read_completes (hmap : s.xtAt o = .unmapped) :
    CompletesQuietly (.xtUnmapped o .read) s [] [0xFF] [.ataBadRegister] := by
  refine .of_answer ?_
  show s.xtRead o = _
  rw [State.xtRead, hmap]

theorem xtUnmapped_write_completes (hmap : s.xtAt o = .unmapped) (b : Byte) :
    CompletesQuietly (.xtUnmapped o (.write b)) s [] [] [.ataBadRegister] := by
  refine .of_answer ?_
  show s.xtWrite o b = _
  rw [State.xtWrite, hmap]

end Mapped

/-- Settles O55, by what the offset is mapped to. -/
theorem xtideRegisters : Obligations.XtideRegisters := by
  intro s o b
  refine ⟨fun i hi hmap => ?register, fun hmap => ?control, fun hmap => ?unmapped⟩
  case register =>
    exact ⟨exec_xtReg_read hi hmap, ⟨_, exec_xtReg_read hi hmap⟩, exec_xtReg_write hi hmap b,
      exec_xtReg_write_completes hi hmap b⟩
  case control =>
    exact ⟨exec_xtControl_read hmap, ⟨_, exec_xtControl_read hmap⟩, exec_xtControl_write hmap b,
      ⟨_, exec_xtControl_write hmap b⟩⟩
  case unmapped => exact ⟨xtUnmapped_write_completes hmap b, xtUnmapped_read_completes hmap⟩

end Sys2Proof.Machine

/-! SUPPORT. The decoder and the encoder (R90 to R123): the row that each table of the decoder names has the event it
was read from, is well formed and belongs to the sequencing state; and each row is read back from its own event. -/
namespace Sys2Proof

/-! ## The row of an event -/

/-- The row is one of the event: the event is the row's own, the row is well formed and belongs to the state. -/
structure Instr.RowOf (i : Instr) (c : Ctx) (e : Event) : Prop where
  event : encode i = e
  wellFormed : i.wellFormed = true
  applies : i.appliesIn c = true

/-! ## The command port of a PIC (R92, R101, R102) -/

theorem decodeOcw2_rowOf {c : Ctx} (p : Nat) {b : Byte} (hidle : c.fsm = .idle) (hmark : b &&& 0x10 = 0)
    (hocw3 : b &&& 0x08 = 0) : (decodeOcw2 p b).RowOf c (.portWrite (.pic p) 0 b) := by
  have happ : (c.fsm == .idle) = true := by simp [hidle]
  unfold decodeOcw2
  split_ifs with hrotate heoi hseoi hnop
  case pos => exact ⟨rfl, by simp only [Instr.wellFormed]; decide +revert, happ⟩
  case pos => exact ⟨rfl, by simp only [Instr.wellFormed]; decide +revert, happ⟩
  case pos => exact ⟨rfl, by simp only [Instr.wellFormed]; decide +revert, happ⟩
  case pos => exact ⟨rfl, by simp only [Instr.wellFormed]; decide +revert, happ⟩
  case neg =>
    have hother : b &&& 0x60 ≠ 0x20 ∧ b &&& 0x60 ≠ 0x60 ∧ b &&& 0x60 ≠ 0x40 := ⟨heoi, hseoi, hnop⟩
    clear heoi hseoi hnop
    exact ⟨rfl, by simp only [Instr.wellFormed]; decide +revert, happ⟩

theorem decodeOcw3_rowOf {c : Ctx} (p : Nat) {b : Byte} (hidle : c.fsm = .idle) (hmark : b &&& 0x10 = 0)
    (hocw3 : b &&& 0x08 ≠ 0) : (decodeOcw3 p b).RowOf c (.portWrite (.pic p) 0 b) := by
  have happ : (c.fsm == .idle) = true := by simp [hidle]
  unfold decodeOcw3
  split_ifs with hsmm hpoll
  case pos => exact ⟨rfl, by simp only [Instr.wellFormed]; decide +revert, happ⟩
  case pos => exact ⟨rfl, by simp only [Instr.wellFormed]; decide +revert, happ⟩
  case neg => exact ⟨rfl, by simp only [Instr.wellFormed]; decide +revert, happ⟩

theorem decodePicCommand_rowOf (c : Ctx) (p : Nat) (b : Byte) :
    (decodePicCommand c.fsm p b).RowOf c (.portWrite (.pic p) 0 b) := by
  unfold decodePicCommand
  split_ifs with hmark hidle hocw3
  · exact ⟨rfl, by simpa [Instr.wellFormed] using hmark, rfl⟩
  · exact ⟨rfl, by simpa [Instr.wellFormed] using hmark, by simpa [Instr.appliesIn] using hidle⟩
  · exact decodeOcw3_rowOf p (not_not.1 hidle) (not_not.1 hmark) hocw3
  · exact decodeOcw2_rowOf p (not_not.1 hidle) (not_not.1 hmark) (not_not.1 hocw3)

/-! ## The other ports (R91, R93, R106, R123) -/

theorem decodePicData_rowOf (c : Ctx) (p : Nat) (b : Byte) :
    (decodePicData c.fsm p b).RowOf c (.portWrite (.pic p) 1 b) := by
  cases hf : c.fsm <;> exact ⟨rfl, rfl, by simp [decodePicData, Instr.appliesIn, hf]⟩

theorem decodePortWrite_rowOf (c : Ctx) (dev : PortDevice) (off : Nat) (b : Byte) :
    (decodePortWrite c dev off b).RowOf c (.portWrite dev off b) := by
  unfold decodePortWrite
  cases dev with
  | pic p =>
    dsimp only
    split_ifs with h0 h1
    · subst h0; exact decodePicCommand_rowOf c p b
    · subst h1; exact decodePicData_rowOf c p b
    · exact ⟨rfl, decide_eq_true (by omega : 2 ≤ off), rfl⟩
  | elcr p =>
    dsimp only
    split_ifs with h0
    · subst h0; exact ⟨rfl, rfl, rfl⟩
    · exact ⟨rfl, decide_eq_true (by omega : 1 ≤ off), rfl⟩
  | xtide =>
    cases hx : c.xt with
    | commandBlock i =>
      dsimp only
      split_ifs with h0
      · exact ⟨rfl, rfl, by simp [Instr.appliesIn, hx, h0]⟩
      · exact ⟨rfl, rfl, by simpa [Instr.appliesIn, hx, XtPort.isRegister] using h0⟩
    | controlBlock | dataHigh | unmapped => exact ⟨rfl, rfl, by simp [Instr.appliesIn, hx]⟩

theorem decodePortRead_rowOf (c : Ctx) (dev : PortDevice) (off : Nat) :
    (decodePortRead c dev off).RowOf c (.portRead dev off) := by
  unfold decodePortRead
  cases dev with
  | pic p =>
    dsimp only
    split_ifs with h0 hf h1 hf
    · subst h0; exact ⟨rfl, rfl, by simp [Instr.appliesIn, hf]⟩
    · subst h0; exact ⟨rfl, rfl, by simpa [Instr.appliesIn] using hf⟩
    · subst h1; exact ⟨rfl, rfl, by simp [Instr.appliesIn, hf]⟩
    · subst h1; exact ⟨rfl, rfl, by simpa [Instr.appliesIn] using hf⟩
    · exact ⟨rfl, decide_eq_true (by omega : 2 ≤ off), rfl⟩
  | elcr p =>
    dsimp only
    split_ifs with h0
    · subst h0; exact ⟨rfl, rfl, rfl⟩
    · exact ⟨rfl, decide_eq_true (by omega : 1 ≤ off), rfl⟩
  | xtide =>
    cases hx : c.xt with
    | commandBlock i =>
      dsimp only
      split_ifs with h0
      · exact ⟨rfl, rfl, by simp [Instr.appliesIn, hx, h0]⟩
      · exact ⟨rfl, rfl, by simpa [Instr.appliesIn, hx, XtPort.isRegister] using h0⟩
    | controlBlock | dataHigh | unmapped => exact ⟨rfl, rfl, by simp [Instr.appliesIn, hx]⟩

/-! ## ATA accesses, opcodes and worker steps (R110, R116, R230) -/

theorem decodeAtaRegisterWrite_rowOf (c : Ctx) (d : Drive) {i : Nat} (hlo : i ≠ 0) (hhi : i ≤ 7) (b : Byte) :
    (decodeAtaRegisterWrite c d i b).RowOf c (.ataWrite d i (byteOnBus b)) := by
  unfold decodeAtaRegisterWrite
  split_ifs with h7 hbusy
  · subst h7; exact ⟨rfl, rfl, rfl⟩
  · exact ⟨rfl, decide_eq_true (by omega), hbusy⟩
  · have happ : (!c.busy) = true := by simpa using hbusy
    split
    case h_6 =>
      simp only [imp_false] at *
      obtain rfl : i = 6 := by omega
      exact ⟨rfl, rfl, happ⟩
    all_goals exact ⟨rfl, rfl, happ⟩

theorem decodeAtaWrite_rowOf {c : Ctx} {d : Drive} {i : Nat} {v : Half} {j : Instr}
    (h : decodeAtaWrite c d i v = .row j) : j.RowOf c (.ataWrite d i v) := by
  unfold decodeAtaWrite at h
  split_ifs at h with hbad hdata hxfer hfits <;> cases h
  · exact ⟨rfl, decide_eq_true hbad, rfl⟩
  · subst hdata; exact ⟨rfl, rfl, by simp [Instr.appliesIn, hxfer]⟩
  · subst hdata; exact ⟨rfl, rfl, by simpa [Instr.appliesIn] using hxfer⟩
  · have hrow := decodeAtaRegisterWrite_rowOf c d hdata (by omega) (Machine.lowByte v)
    rwa [Machine.byteOnBus_lowByte v hfits] at hrow

theorem decodeAtaRead_rowOf (c : Ctx) (d : Drive) (i : Nat) : (decodeAtaRead c d i).RowOf c (.ataRead d i) := by
  unfold decodeAtaRead
  split
  case isTrue hbad => exact ⟨rfl, decide_eq_true hbad, rfl⟩
  split
  case isTrue h7 => subst h7; exact ⟨rfl, rfl, rfl⟩
  split
  case isTrue hbusy => exact ⟨rfl, decide_eq_true (by omega), hbusy⟩
  case isFalse hbusy =>
    have happ : (!c.busy) = true := by simpa using hbusy
    split
    case h_1 =>
      split
      · next hx => exact ⟨rfl, rfl, by simp [Instr.appliesIn, hx, happ]⟩
      · next hx => exact ⟨rfl, rfl, by simpa [Instr.appliesIn, happ] using hx⟩
    case h_7 =>
      simp only [imp_false] at *
      obtain rfl : i = 6 := by omega
      exact ⟨rfl, rfl, happ⟩
    all_goals exact ⟨rfl, rfl, happ⟩

theorem decodeOpcode_unknown (d : Drive) {b : Byte} (h : knownOpcode b = false) :
    decodeOpcode d b = .ataUnknownCommand d b := by
  simp only [knownOpcode, Bool.or_eq_false_iff, beq_eq_false_iff_ne, ne_eq] at h
  simp only [decodeOpcode, h, if_false]

theorem decodeOpcode_rowOf (c : Ctx) (d : Drive) (b : Byte) : (decodeOpcode d b).RowOf c (.command d b) := by
  cases hk : knownOpcode b with
  | false => rw [decodeOpcode_unknown d hk]; exact ⟨rfl, by simp [Instr.wellFormed, hk], rfl⟩
  | true =>
    simp only [knownOpcode, Bool.or_eq_true, beq_iff_eq, or_assoc] at hk
    rcases hk with rfl | rfl | rfl | rfl | rfl | rfl | rfl | rfl | rfl | rfl | rfl | rfl <;> exact ⟨rfl, rfl, rfl⟩

theorem decodeWorker_rowOf {c : Ctx} {d : Drive} {i : Instr} (h : decodeWorker d c.worker = .row i) :
    i.RowOf c (.worker d) := by
  cases hw : c.worker with
  | none => rw [hw] at h; cases h
  | some k => cases k <;> rw [hw] at h <;> cases h <;> exact ⟨rfl, rfl, by simp [Instr.appliesIn, hw]⟩

/-! ## Calls with checked operands (R61, R66, R126, R130) -/

/-- A check that leaves a row has been passed. -/
theorem checked_eq_row {ok : Bool} {r : Reject} {next : Decoded} {i : Instr} (h : checked ok r next = .row i) :
    ok = true ∧ next = .row i := by
  unfold checked at h
  split at h
  · next hok => exact ⟨hok, h⟩
  · cases h

theorem checked_true (r : Reject) (next : Decoded) : checked true r next = next := rfl

theorem decodeMuxWrite_rowOf {c : Ctx} {k : Nat} {v : Half} (hfits : accessFits k (.write v) = true) :
    (if k = 6 then Instr.muxDriveHeadW (v.truncate 8) else .muxForward k (.write v)).RowOf c (.muxWrite k v) := by
  split_ifs with h6
  · subst h6
    have hv : v.toNat < 256 := by simpa [accessFits] using hfits
    exact ⟨congrArg (Event.muxWrite 6) (Machine.byteOnBus_lowByte v hv), rfl, rfl⟩
  · exact ⟨rfl, by simp [Instr.wellFormed, hfits, h6], rfl⟩

theorem decodeControlWrite_rowOf {c : Ctx} {d : Drive} {k : Nat} {v : Half} {i : Instr}
    (h : decode c (.controlWrite d k v) = .row i) : i.RowOf c (.controlWrite d k v) := by
  change (if k = 6 then _ else _) = _ at h
  split_ifs at h with h6
  · obtain ⟨hv, h⟩ := checked_eq_row h
    cases h; subst h6
    exact ⟨congrArg (Event.controlWrite d 6) (Machine.byteOnBus_lowByte v (of_decide_eq_true hv)), rfl, rfl⟩
  · cases h
    exact ⟨rfl, by simpa [Instr.wellFormed, badIndex] using h6, rfl⟩

/-- Every row that the decoder answers is one of the event, but for a bare byte, which names no port. -/
theorem decode_rowOf {c : Ctx} {e : Event} {i : Instr} (hbare : ∀ n w, e ≠ .bare n w) (h : decode c e = .row i) :
    i.RowOf c e := by
  cases e with
  | portWrite dev off b => cases h; exact decodePortWrite_rowOf c dev off b
  | portRead dev off => cases h; exact decodePortRead_rowOf c dev off
  | line p n a =>
    cases h
    split_ifs with hl
    · exact ⟨rfl, rfl, hl⟩
    · exact ⟨rfl, rfl, by simpa [Instr.appliesIn] using hl⟩
  | inta p => cases h; cases ha : c.ack <;> exact ⟨rfl, rfl, by simp [Instr.appliesIn, ha]⟩
  | picInit p i1 i2 i3 i4 => obtain ⟨hmark, h⟩ := checked_eq_row h; cases h; exact ⟨rfl, hmark, rfl⟩
  | splitWrite hd a sz v w =>
    obtain ⟨hsz, h⟩ := checked_eq_row h
    obtain ⟨hw, h⟩ := checked_eq_row h
    obtain ⟨hv, h⟩ := checked_eq_row h
    cases h; exact ⟨rfl, by simp [Instr.wellFormed, hsz, hw, hv], rfl⟩
  | splitRead hd a sz w =>
    obtain ⟨hsz, h⟩ := checked_eq_row h
    obtain ⟨hw, h⟩ := checked_eq_row h
    cases h; exact ⟨rfl, by simp [Instr.wellFormed, hsz, hw], rfl⟩
  | reg sp base limit hd off =>
    obtain ⟨hok, h⟩ := checked_eq_row h
    cases h
    simp only [addressIn, limitIn, Bool.and_eq_true] at hok
    obtain ⟨⟨⟨hb, hbs⟩, hl, hls⟩, ho⟩ := hok
    exact ⟨rfl, by simp [Instr.wellFormed, hb, hl, ho], by simp [Instr.appliesIn, hbs, hls]⟩
  | resolve sp a =>
    obtain ⟨hok, h⟩ := checked_eq_row h
    cases h
    obtain ⟨ha, hin⟩ := Bool.and_eq_true_iff.1 hok
    exact ⟨rfl, ha, hin⟩
  | busRead sp a sz =>
    obtain ⟨hsz, h⟩ := checked_eq_row h
    obtain ⟨hok, h⟩ := checked_eq_row h
    cases h
    obtain ⟨ha, hin⟩ := Bool.and_eq_true_iff.1 hok
    exact ⟨rfl, by simp [Instr.wellFormed, hsz, ha], hin⟩
  | busWrite sp a sz v =>
    obtain ⟨hsz, h⟩ := checked_eq_row h
    obtain ⟨hok, h⟩ := checked_eq_row h
    obtain ⟨hv, h⟩ := checked_eq_row h
    cases h
    obtain ⟨ha, hin⟩ := Bool.and_eq_true_iff.1 hok
    exact ⟨rfl, by simp [Instr.wellFormed, hsz, ha, hv], hin⟩
  | establishMappings sp engine base limit =>
    obtain ⟨hok, h⟩ := checked_eq_row h
    cases h
    simp only [addressIn, limitIn, Bool.and_eq_true] at hok
    obtain ⟨⟨hb, hbs⟩, hl, hls⟩ := hok
    exact ⟨rfl, by simp [Instr.wellFormed, hb, hl], by simp [Instr.appliesIn, hbs, hls]⟩
  | ataWrite d k v => exact decodeAtaWrite_rowOf h
  | ataRead d k => cases h; exact decodeAtaRead_rowOf c d k
  | controlWrite d k v => exact decodeControlWrite_rowOf h
  | controlRead d k =>
    cases h
    split_ifs with h6
    · subst h6; exact ⟨rfl, rfl, rfl⟩
    · exact ⟨rfl, by simpa [Instr.wellFormed, badIndex] using h6, rfl⟩
  | command d b => cases h; exact decodeOpcode_rowOf c d b
  | worker d => exact decodeWorker_rowOf h
  | muxWrite k v =>
    obtain ⟨hfits, h⟩ := checked_eq_row h
    cases h; exact decodeMuxWrite_rowOf hfits
  | muxRead k => cases h; exact ⟨rfl, by simp [Instr.wellFormed, accessFits], rfl⟩
  | bare n w => exact absurd rfl (hbare n w)
  | wordWrite m w x mask data => cases h
  | wordRead m w x mask => cases h
  | teardown d | join d | constructDevice d => cases h
  | constructPic wire => cases h
  | constructMemory size permissions word => cases h
  | eoi p | poll p => cases h; exact ⟨rfl, rfl, rfl⟩
  | seoi p n => cases h; exact ⟨rfl, rfl, rfl⟩
  | mask p m => cases h; exact ⟨rfl, rfl, rfl⟩
  | release k op => cases h; exact ⟨rfl, rfl, rfl⟩
  | unreg sp r => cases h; exact ⟨rfl, rfl, rfl⟩
  | removeMappings sp => cases h; exact ⟨rfl, rfl, rfl⟩
  | muxControlWrite b => cases h; exact ⟨rfl, rfl, rfl⟩
  | muxControlRead => cases h; exact ⟨rfl, rfl, rfl⟩
  | muxNotify d => cases h; exact ⟨rfl, rfl, rfl⟩

/-- Settles O2, by the kind of the event. -/
theorem encodeOfDecode : Obligations.EncodeOfDecode := by
  intro c e i hbare h
  obtain ⟨hevent, hwf, happ⟩ := decode_rowOf hbare h
  exact ⟨hevent, hwf, happ⟩

/-! ## The row of its own event -/

/-- A field of a byte is known where a wider field is. -/
theorem byte_field {b m v : Byte} (k : Byte) (h : b &&& m = v) (hk : m &&& k = k) : b &&& k = v &&& k := by
  rw [← h, BitVec.and_assoc, hk]

section CommandPort
variable {c : Ctx} {b : Byte} (p : Nat)

theorem decode_ocw2 (hidle : c.fsm = .idle) (hmarks : b &&& 0x18 = 0) :
    decode c (.portWrite (.pic p) 0 b) = .row (decodeOcw2 p b) := by
  have hicw1 : b &&& 0x10#8 = 0 := byte_field 0x10#8 hmarks rfl
  have hocw3 : b &&& 0x08#8 = 0 := byte_field 0x08#8 hmarks rfl
  simp [decode, decodePortWrite, decodePicCommand, hidle, hicw1, hocw3]

theorem decode_ocw3 (hidle : c.fsm = .idle) (hmarks : b &&& 0x18 = 0x08) :
    decode c (.portWrite (.pic p) 0 b) = .row (decodeOcw3 p b) := by
  have hicw1 : b &&& 0x10#8 = 0 := byte_field 0x10#8 hmarks rfl
  have hocw3 : b &&& 0x08#8 = 0x08 := byte_field 0x08#8 hmarks rfl
  simp [decode, decodePortWrite, decodePicCommand, hidle, hicw1, hocw3]

end CommandPort

/-- A byte on the bus fits every register, and is that byte. -/
theorem byteOnBus_lt (b : Byte) : (byteOnBus b).toNat < 256 := by
  have := b.isLt
  simp [byteOnBus]
  omega

theorem decodeAtaWrite_register (c : Ctx) (d : Drive) {i : Nat} (hlo : i ≠ 0) (hhi : i ≤ 7) (b : Byte) :
    decodeAtaWrite c d i (byteOnBus b) = .row (decodeAtaRegisterWrite c d i b) := by
  have hbad : ¬7 < i := by omega
  have hlow : (byteOnBus b).truncate 8 = b := Machine.lowByte_byteOnBus b
  simp only [decodeAtaWrite, if_neg hbad, if_neg hlo, if_pos (byteOnBus_lt b), hlow]

/-- Settles O1, by the kind of the row: the tests of the decoder read back the operands that make the row well formed
and the sequencing state that it applies in. -/
theorem decodeOfEncode : Obligations.DecodeOfEncode := by
  intro i c hwf happ
  cases i with
  | icw1 p b =>
    have hmark : b &&& 0x10 ≠ 0 := by simpa [Instr.wellFormed] using hwf
    exact congrArg Decoded.row (if_pos hmark)
  | ocw2Eoi p b =>
    have hb : b &&& 0xF8 = 0x20 := by simpa [Instr.wellFormed] using hwf
    have hidle : c.fsm = .idle := by simpa [Instr.appliesIn] using happ
    rw [encode, decode_ocw2 p hidle (byte_field 0x18#8 hb rfl)]
    simp [decodeOcw2, byte_field 0x80#8 hb rfl, byte_field 0x60#8 hb rfl]
  | ocw2Seoi p b =>
    have hb : b &&& 0xF8 = 0x60 := by simpa [Instr.wellFormed] using hwf
    have hidle : c.fsm = .idle := by simpa [Instr.appliesIn] using happ
    rw [encode, decode_ocw2 p hidle (byte_field 0x18#8 hb rfl)]
    simp [decodeOcw2, byte_field 0x80#8 hb rfl, byte_field 0x60#8 hb rfl]
  | ocw2NopSl p b =>
    have hb : b &&& 0xF8 = 0x40 := by simpa [Instr.wellFormed] using hwf
    have hidle : c.fsm = .idle := by simpa [Instr.appliesIn] using happ
    rw [encode, decode_ocw2 p hidle (byte_field 0x18#8 hb rfl)]
    simp [decodeOcw2, byte_field 0x80#8 hb rfl, byte_field 0x60#8 hb rfl]
  | ocw2Nop0 p b =>
    have hb : b &&& 0xF8 = 0x00 := by simpa [Instr.wellFormed] using hwf
    have hidle : c.fsm = .idle := by simpa [Instr.appliesIn] using happ
    rw [encode, decode_ocw2 p hidle (byte_field 0x18#8 hb rfl)]
    simp [decodeOcw2, byte_field 0x80#8 hb rfl, byte_field 0x60#8 hb rfl]
  | ocw2Rotate p b =>
    have hb : b &&& 0x98 = 0x80 := by simpa [Instr.wellFormed] using hwf
    have hidle : c.fsm = .idle := by simpa [Instr.appliesIn] using happ
    rw [encode, decode_ocw2 p hidle (byte_field 0x18#8 hb rfl)]
    simp [decodeOcw2, byte_field 0x80#8 hb rfl]
  | ocw3 p b =>
    have hb : b &&& 0x3C = 0x08 := by simpa [Instr.wellFormed] using hwf
    have hidle : c.fsm = .idle := by simpa [Instr.appliesIn] using happ
    rw [encode, decode_ocw3 p hidle (byte_field 0x18#8 hb rfl)]
    simp [decodeOcw3, byte_field 0x20#8 hb rfl, byte_field 0x04#8 hb rfl]
  | ocw3Poll p b =>
    have hb : b &&& 0x3C = 0x0C := by simpa [Instr.wellFormed] using hwf
    have hidle : c.fsm = .idle := by simpa [Instr.appliesIn] using happ
    rw [encode, decode_ocw3 p hidle (byte_field 0x18#8 hb rfl)]
    simp [decodeOcw3, byte_field 0x20#8 hb rfl, byte_field 0x04#8 hb rfl]
  | ocw3Smm p b =>
    have hb : b &&& 0x38 = 0x28 := by simpa [Instr.wellFormed] using hwf
    have hidle : c.fsm = .idle := by simpa [Instr.appliesIn] using happ
    rw [encode, decode_ocw3 p hidle (byte_field 0x18#8 hb rfl)]
    simp [decodeOcw3, byte_field 0x20#8 hb rfl]
  | picCmdWriteUnspec p b =>
    have hmark : b &&& 0x10#8 = 0 := by simpa [Instr.wellFormed] using hwf
    have hbusy : c.fsm ≠ .idle := by simpa [Instr.appliesIn] using happ
    simp [encode, decode, decodePortWrite, decodePicCommand, hmark, hbusy]
  | icw2 p b | icw3 p b | icw4 p b | ocw1 p b | picDataWriteUnspec p b =>
    simp only [Instr.appliesIn, beq_iff_eq] at happ
    simp [encode, decode, decodePortWrite, decodePicData, happ]
  | pollRead p | picCmdReadUnspec p | maskRead p | irrIsrRead p =>
    simp only [Instr.appliesIn, beq_iff_eq, bne_iff_ne] at happ
    simp [encode, decode, decodePortRead, happ]
  | picBadPort dev off acc =>
    cases dev with
    | pic p =>
      have hoff : off ≠ 0 ∧ off ≠ 1 := by
        have : 2 ≤ off := of_decide_eq_true hwf
        omega
      cases acc <;> simp [encode, decode, decodePortWrite, decodePortRead, hoff]
    | elcr p =>
      have hoff : off ≠ 0 := Nat.one_le_iff_ne_zero.1 (of_decide_eq_true hwf)
      cases acc <;> simp [encode, decode, decodePortWrite, decodePortRead, hoff]
    | xtide => cases hwf
  | elcrWrite p b | elcrRead p => rfl
  | lineLevel p n a | lineEdge p n a =>
    simp only [Instr.appliesIn, Bool.not_eq_true'] at happ
    simp [encode, decode, happ]
  | inta p | intaSpurious p | intaCascade p =>
    simp only [Instr.appliesIn, beq_iff_eq] at happ
    simp [encode, decode, happ]
  | picInit p i1 i2 i3 i4 =>
    simp only [Instr.wellFormed] at hwf
    simp only [encode, decode, hwf, checked_true]
  | eoi p | poll p => rfl
  | seoi p n => rfl
  | mask p m => rfl
  | splitWrite hd a sz v w | splitRead hd a sz w =>
    simp only [Instr.wellFormed, Bool.and_eq_true] at hwf
    simp only [encode, decode, hwf, checked_true]
  | reg sp base limit hd off =>
    simp only [Instr.wellFormed, Instr.appliesIn, Bool.and_eq_true] at hwf happ
    simp only [encode, decode, addressIn, limitIn, hwf, happ, Bool.and_self, checked_true]
  | establishMappings sp engine base limit =>
    simp only [Instr.wellFormed, Instr.appliesIn, Bool.and_eq_true] at hwf happ
    simp only [encode, decode, addressIn, limitIn, hwf, happ, Bool.and_self, checked_true]
  | resolve sp a | inPort sp a sz | outPort sp a sz v =>
    simp only [Instr.wellFormed, Instr.appliesIn, Bool.and_eq_true] at hwf happ
    simp only [encode, decode, addressIn, hwf, happ, Bool.and_self, checked_true]
  | release k op => rfl
  | unreg sp r => rfl
  | removeMappings sp => rfl
  | ataFeatureW d b | ataSectorCountW d b | ataSectorNumberW d b | ataCylinderLowW d b | ataCylinderHighW d b
  | ataDriveHeadW d b =>
    have hidle : c.busy = false := by simpa [Instr.appliesIn] using happ
    refine (decodeAtaWrite_register c d (by decide) (by decide) b).trans ?_
    simp [decodeAtaRegisterWrite, hidle]
  | ataGatedW d k b =>
    have hbusy : c.busy = true := happ
    have hk : 1 ≤ k ∧ k ≤ 6 := of_decide_eq_true hwf
    have h7 : k ≠ 7 := by omega
    refine (decodeAtaWrite_register c d (by omega) (by omega) b).trans ?_
    simp [decodeAtaRegisterWrite, hbusy, h7]
  | ataCommandW d b => exact decodeAtaWrite_register c d (by decide) (by decide) b
  | ataDataW d v | ataDataWIdle d v =>
    simp only [Instr.appliesIn, beq_iff_eq, bne_iff_ne] at happ
    simp [encode, decode, decodeAtaWrite, happ]
  | ataDataR d | ataDataRIdle d =>
    simp only [Instr.appliesIn, Bool.and_eq_true, Bool.not_eq_true', beq_iff_eq, bne_iff_ne] at happ
    simp [encode, decode, decodeAtaRead, happ]
  | ataErrorR d | ataSectorCountR d | ataSectorNumberR d | ataCylinderLowR d | ataCylinderHighR d | ataDriveHeadR d =>
    have hidle : c.busy = false := by simpa [Instr.appliesIn] using happ
    simp [encode, decode, decodeAtaRead, hidle]
  | ataStatusR d => rfl
  | ataBusyR d k =>
    have hbusy : c.busy = true := happ
    have hk : k ≤ 6 := of_decide_eq_true hwf
    have hbad : ¬7 < k := by omega
    have h7 : k ≠ 7 := by omega
    simp [encode, decode, decodeAtaRead, hbusy, hbad, h7]
  | ataBadIndex d blk k acc =>
    cases blk with
    | command =>
      have hbad : 7 < k := of_decide_eq_true hwf
      cases acc <;> simp [encode, decode, decodeAtaRead, decodeAtaWrite, hbad]
    | control =>
      have hbad : k ≠ 6 := by simpa [Instr.wellFormed, badIndex] using hwf
      cases acc <;> simp [encode, decode, hbad]
  | ataAltStatusR d => rfl
  | ataDeviceControlW d b =>
    have hlow : (byteOnBus b).truncate 8 = b := Machine.lowByte_byteOnBus b
    simp only [encode, decode, if_true, decide_eq_true (byteOnBus_lt b), checked_true, hlow]
  | recalibrate d | readSectors d | readSectorsNoRetry d | writeSectors d | writeSectorsNoRetry d | seek d
  | initializeDriveParameters d | readMultiple d | writeMultiple d | setMultipleMode d | identifyDrive d
  | setFeatures d => rfl
  | ataUnknownCommand d b =>
    have hk : knownOpcode b = false := by simpa [Instr.wellFormed] using hwf
    exact congrArg Decoded.row (decodeOpcode_unknown d hk)
  | workerStop d | workerReset d | workerCommand d | workerContinueRead d | workerContinueWrite d =>
    simp only [Instr.appliesIn, beq_iff_eq] at happ
    simp only [encode, decode, happ, decodeWorker]
  | muxForward k acc =>
    simp only [Instr.wellFormed, Bool.and_eq_true] at hwf
    obtain ⟨hfits, hk⟩ := hwf
    cases acc with
    | read => rfl
    | write v =>
      have h6 : k ≠ 6 := by simpa using hk
      simp only [encode, decode, hfits, checked_true, if_neg h6]
  | muxDriveHeadW b =>
    have hlow : (byteOnBus b).truncate 8 = b := Machine.lowByte_byteOnBus b
    have hfits : accessFits 6 (.write (byteOnBus b)) = true := by simp [accessFits, byteOnBus_lt b]
    simp only [encode, decode, hfits, checked_true, if_true, hlow]
  | muxDeviceControlW b => rfl
  | muxAltStatusR => rfl
  | muxNotify d => rfl
  | xtDataLowR o | xtDataHighR o =>
    simp only [Instr.appliesIn, beq_iff_eq] at happ
    simp [encode, decode, decodePortRead, happ]
  | xtDataHighW o b | xtDataLowW o b =>
    simp only [Instr.appliesIn, beq_iff_eq] at happ
    simp [encode, decode, decodePortWrite, happ]
  | xtReg o acc =>
    cases hx : c.xt with
    | commandBlock k =>
      have hk : k ≠ 0 := by simpa [Instr.appliesIn, hx, XtPort.isRegister] using happ
      cases acc <;> simp [encode, decode, decodePortRead, decodePortWrite, hx, hk]
    | controlBlock | dataHigh | unmapped => simp [Instr.appliesIn, hx, XtPort.isRegister] at happ
  | xtControl o acc | xtUnmapped o acc =>
    simp only [Instr.appliesIn, beq_iff_eq] at happ
    cases acc <;> simp [encode, decode, decodePortRead, decodePortWrite, happ]

/-- Settles O3: each access is decoded by evaluation. -/
theorem writtenOutAccesses : Obligations.WrittenOutAccesses := by
  unfold Obligations.WrittenOutAccesses
  decide

end Sys2Proof

/-! SUPPORT. What every step keeps of the PICs (R10, R32, R170): the output at the level of the unserviced lines, no
special-mask bit, and the chaining a finite forest. -/
namespace Sys2Proof.Machine

/-! ## The output invariant -/

theorem Pic.Inv.settled {q : Pic} (h : q.ocw3 &&& 0x20 = 0) : q.settled.Inv := ⟨rfl, h⟩

/-- Whatever an instruction makes of a PIC, its output is recomputed where a register it depends on changes. -/
theorem PicChange.keeps_inv {i : Instr} {p : Nat} {q q' : Pic} (h : PicChange i p q q') (hq : q.Inv) : q'.Inv := by
  have hmask := hq.noSpecialMask
  cases h with
  | icw1 b | ocw1 b => exact .settled hmask
  | eoiAt n | acknowledge n => exact .settled hmask
  | level n a | edge n a => exact .settled hmask
  | eoi =>
    have hocw3 : q.endOfInterrupt.ocw3 = q.ocw3 := by unfold Pic.endOfInterrupt; split <;> rfl
    exact .settled (by rw [hocw3, hmask])
  | icw2 b | icw3 b | icw4 b => exact ⟨hq.output, hmask⟩
  | polled | elcr b => exact ⟨hq.output, hmask⟩
  | ocw3 b _ hb => exact ⟨hq.output, hb⟩

theorem Pic.constructed_inv (secondary : Vector (Option Nat) 8) : (Pic.constructed secondary).Inv := by
  constructor <;> simp [Pic.constructed]

theorem State.PicInv.of_pics {s t : State} (h : t.pics = s.pics) (hs : s.PicInv) : t.PicInv := by
  intro q hq
  exact hs q (h ▸ hq)

theorem Effect.keeps_picInv {i : Instr} {s t : State} (h : Effect i s t) (hs : s.PicInv) : t.PicInv := by
  obtain hsame | ⟨p, q, q', hq, hchange, hset⟩ := h.pics
  · exact hs.of_pics hsame
  · intro r hr
    rw [hset] at hr
    obtain hr | rfl := List.mem_or_eq_of_mem_set hr
    · exact hs r hr
    · exact hchange.keeps_inv (hs q (List.mem_of_getElem? hq))

theorem EventEffect.keeps_picInv {e : Event} {s t : State} (h : EventEffect s e t) (hs : s.PicInv) : t.PicInv := by
  have hadd : ∀ old : List Pic, (∀ r ∈ old, r.Inv) → (s.addPic old).PicInv := by
    intro old hold r hr
    simp only [State.addPic_eq, State.answerHandle_pics, State.setPics_pics, List.mem_append, List.mem_singleton] at hr
    obtain hr | rfl := hr
    · exact hold r hr
    · exact Pic.constructed_inv _
  cases h with
  | wordWrite m w x mask data b _ => exact hs.of_pics (by simp)
  | wordRead m w x mask b _ => exact hs.of_pics (by simp)
  | teardown d => exact hs.of_pics (by simp)
  | join d => exact hs.of_pics (s.joinWorker_quiet d).pics.pics
  | device d _ => exact hs.of_pics (State.commitDevice_spec (.refl s) (.refl s) (.refl s)).2.2.1.pics
  | outermostPic => exact hadd s.pics hs
  | chainedPic l q hq _ =>
    refine hadd _ fun r hr => ?_
    obtain hr | rfl := List.mem_or_eq_of_mem_set hr
    · exact hs r hr
    · have hinv := hs q (List.mem_of_getElem? hq)
      exact ⟨hinv.output, hinv.noSpecialMask⟩
  | memory size permissions word _ _ => exact hs.of_pics (by simp)

/-! ## The forest invariant -/

/-- PIC `k` is chained on line `n` of PIC `p` (R28). -/
def State.ChainedAt (s : State) (p : Nat) (n : Fin 8) (k : Nat) : Prop :=
  ∃ q, s.pics[p]? = some q ∧ q.secondary.get n = some k

theorem State.chained_iff {s : State} {p k : Nat} : s.Chained p k ↔ ∃ n, s.ChainedAt p n k :=
  ⟨fun ⟨q, n, hq, hn⟩ => ⟨n, q, hq, hn⟩, fun ⟨n, q, hq, hn⟩ => ⟨q, n, hq, hn⟩⟩

theorem State.TopologyInv.unique {s : State} (h : s.TopologyInv) {p p' k : Nat} {n n' : Fin 8}
    (hp : s.ChainedAt p n k) (hp' : s.ChainedAt p' n' k) : p = p' ∧ n = n' := by
  obtain ⟨q, hq, hn⟩ := hp
  obtain ⟨q', hq', hn'⟩ := hp'
  exact h.once p p' k q q' n n' hq hq' hn hn'

/-- The forest is kept where no chaining changes and no PIC goes away. -/
theorem State.TopologyInv.of_chainedAt {s t : State} (hchain : ∀ p n k, t.ChainedAt p n k ↔ s.ChainedAt p n k)
    (hlen : s.pics.length ≤ t.pics.length) (hs : s.TopologyInv) : t.TopologyInv := by
  have hrel : t.Chained = s.Chained := by
    funext p k
    simp only [State.chained_iff, hchain]
  refine ⟨fun p k hpk => ?_, fun p p' k q q' n n' hq hq' hn hn' => ?_, fun p hp => ?_⟩
  · exact (hs.present p k (hrel ▸ hpk)).trans_le hlen
  · exact hs.unique ((hchain p n k).1 ⟨q, hq, hn⟩) ((hchain p' n' k).1 ⟨q', hq', hn'⟩)
  · exact hs.acyclic p (hrel ▸ hp)

theorem State.TopologyInv.of_pics {s t : State} (h : t.pics = s.pics) (hs : s.TopologyInv) : t.TopologyInv :=
  hs.of_chainedAt (fun p n k => by simp only [State.ChainedAt, h]) (by rw [h])

/-- No instruction changes what is chained on a PIC. -/
theorem PicChange.secondary {i : Instr} {p : Nat} {q q' : Pic} (h : PicChange i p q q') :
    q'.secondary = q.secondary := by
  cases h with
  | eoi => exact q.endOfInterrupt_fields.2
  | _ => rfl

theorem Effect.keeps_topologyInv {i : Instr} {s t : State} (h : Effect i s t) (hs : s.TopologyInv) : t.TopologyInv := by
  obtain hsame | ⟨p, q, q', hq, hchange, hset⟩ := h.pics
  · exact hs.of_pics hsame
  · refine hs.of_chainedAt (fun m n k => ?_) (by rw [hset, List.length_set])
    have hlt := (List.getElem?_eq_some_iff.1 hq).1
    simp only [State.ChainedAt, hset]
    by_cases hm : m = p
    · subst hm
      simp [List.getElem?_set_self hlt, hq, hchange.secondary]
    · simp [List.getElem?_set_ne (Ne.symm hm)]

theorem noSecondaries_get (n : Fin 8) : noSecondaries.get n = none := by
  revert n; decide

/-- A PIC that is added has nothing chained on it. -/
theorem State.addPic_chainedAt {s : State} {old : List Pic} {p k : Nat} {n : Fin 8} :
    (s.addPic old).ChainedAt p n k ↔ ∃ q, old[p]? = some q ∧ q.secondary.get n = some k := by
  simp only [State.ChainedAt, State.addPic_eq, State.answerHandle_pics, State.setPics_pics]
  obtain hlt | hge := Nat.lt_or_ge p old.length
  · rw [List.getElem?_append_left hlt]
  · rw [List.getElem?_append_right hge, List.getElem?_eq_none hge]
    cases p - old.length <;> simp [Pic.constructed, noSecondaries_get]

theorem State.addPic_length (s : State) (old : List Pic) : (s.addPic old).pics.length = old.length + 1 := by
  simp

theorem Pic.chain_get (q : Pic) (n m : Fin 8) (k : Nat) :
    (q.chain n k).secondary.get m = if m = n then some k else q.secondary.get m := by
  simp only [Pic.chain, Vector.get_eq_getElem, Vector.getElem_set, Fin.ext_iff, eq_comm]

/-- Chaining a new PIC on a free line adds that one edge. -/
theorem State.addPic_chain_chainedAt {s : State} {l : LineRef} {q : Pic} (hq : s.pics[l.pic]? = some q)
    (hfree : q.secondary.get l.line = none) {p k : Nat} {n : Fin 8} :
    (s.addPic (s.pics.set l.pic (q.chain l.line s.pics.length))).ChainedAt p n k ↔
      s.ChainedAt p n k ∨ (p = l.pic ∧ n = l.line ∧ k = s.pics.length) := by
  have hlt := (List.getElem?_eq_some_iff.1 hq).1
  rw [State.addPic_chainedAt, State.ChainedAt]
  by_cases hp : p = l.pic
  · subst hp
    by_cases hn : n = l.line
    · subst hn
      simp [List.getElem?_set_self hlt, hq, Pic.chain_get, hfree, eq_comm]
    · simp [List.getElem?_set_self hlt, hq, Pic.chain_get, hn]
  · simp [List.getElem?_set_ne (Ne.symm hp), hp]

/-- A new leaf keeps the forest: nothing leads on from it, and only the one line leads to it. -/
theorem State.TopologyInv.add_leaf {s t : State} {p₀ : Nat} {n₀ : Fin 8}
    (hchain : ∀ p n k, t.ChainedAt p n k ↔ s.ChainedAt p n k ∨ (p = p₀ ∧ n = n₀ ∧ k = s.pics.length))
    (hp₀ : p₀ < s.pics.length) (hlen : t.pics.length = s.pics.length + 1) (hs : s.TopologyInv) : t.TopologyInv := by
  have hold : ∀ {p n k}, s.ChainedAt p n k → k < s.pics.length :=
    fun h => hs.present _ _ (State.chained_iff.2 ⟨_, h⟩)
  have hedge : ∀ {p k}, t.Chained p k → s.Chained p k ∨ (p = p₀ ∧ k = s.pics.length) := by
    intro p k h
    obtain ⟨n, h⟩ := State.chained_iff.1 h
    obtain h | ⟨hp, -, hk⟩ := (hchain p n k).1 h
    · exact .inl (State.chained_iff.2 ⟨n, h⟩)
    · exact .inr ⟨hp, hk⟩
  have hsource : ∀ {p k}, t.Chained p k → p < s.pics.length := by
    intro p k h
    obtain ⟨q, n, hq, -⟩ | ⟨rfl, -⟩ := hedge h
    · exact (List.getElem?_eq_some_iff.1 hq).1
    · exact hp₀
  have hpath : ∀ {p k}, Relation.TransGen t.Chained p k →
      k = s.pics.length ∨ Relation.TransGen s.Chained p k := by
    intro p k h
    induction h with
    | single h => exact (hedge h).elim (fun h => .inr (.single h)) (fun h => .inl h.2)
    | tail _ h ih =>
      obtain hstep | ⟨-, hk⟩ := hedge h
      · exact .inr ((ih.resolve_left (hsource h).ne).tail hstep)
      · exact .inl hk
  refine ⟨fun p k h => ?_, fun p p' k q q' n n' hq hq' hn hn' => ?_, fun p h => ?_⟩
  · obtain h | ⟨-, rfl⟩ := hedge h
    · have := hs.present p k h; omega
    · omega
  · obtain h | ⟨rfl, rfl, hk⟩ := (hchain p n k).1 ⟨q, hq, hn⟩ <;>
      obtain h' | ⟨rfl, rfl, hk'⟩ := (hchain p' n' k).1 ⟨q', hq', hn'⟩
    · exact hs.unique h h'
    · have := hold h; omega
    · have := hold h'; omega
    · exact ⟨rfl, rfl⟩
  · obtain ⟨k, hfirst, -⟩ := Relation.TransGen.head'_iff.1 h
    obtain rfl | hcycle := hpath h
    · exact absurd (hsource hfirst) (by omega)
    · exact hs.acyclic p hcycle

theorem EventEffect.keeps_topologyInv {e : Event} {s t : State} (h : EventEffect s e t) (hs : s.TopologyInv) :
    t.TopologyInv := by
  cases h with
  | wordWrite m w x mask data b _ => exact hs.of_pics (by simp)
  | wordRead m w x mask b _ => exact hs.of_pics (by simp)
  | teardown d => exact hs.of_pics (by simp)
  | join d => exact hs.of_pics (s.joinWorker_quiet d).pics.pics
  | device d _ => exact hs.of_pics (State.commitDevice_spec (.refl s) (.refl s) (.refl s)).2.2.1.pics
  | outermostPic => exact hs.of_chainedAt (fun p n k => State.addPic_chainedAt) (by rw [State.addPic_length]; omega)
  | chainedPic l q hq hfree =>
    exact hs.add_leaf (fun p n k => State.addPic_chain_chainedAt hq hfree) (List.getElem?_eq_some_iff.1 hq).1
      (by rw [State.addPic_length, List.length_set])
  | memory size permissions word _ _ => exact hs.of_pics (by simp)

/-- Settles O56: neither part is touched by taking an event, and each change of a PIC and each construction keeps
both. -/
theorem stepKeepsPicOutput : Obligations.StepKeepsPicOutput :=
  ⟨step_keeps (fun _ _ h hs => hs.of_pics h.pics) (fun _ _ _ h => h.keeps_picInv) (fun _ _ _ h => h.keeps_picInv),
    step_keeps (fun _ _ h hs => hs.of_pics h.pics) (fun _ _ _ h => h.keeps_topologyInv)
      (fun _ _ _ h => h.keeps_topologyInv)⟩

end Sys2Proof.Machine

/-! SUPPORT. The dispatchers (R34 to R36, R134 to R141): what each update of a table makes of the ranges, the mapped
ranges and the engine's mappings, and that every step keeps the ranges apart and the mappings in agreement with them.
-/
namespace Sys2Proof.Machine

/-! ## Registration (R134) -/

theorem mem_insertRange {r q : AddressRange} {l : List AddressRange} : q ∈ insertRange r l ↔ q = r ∨ q ∈ l := by
  induction l with
  | nil => simp [insertRange]
  | cons x l ih =>
    unfold insertRange
    split
    · simp
    · simp only [List.mem_cons, ih]; tauto

/-- Two ranges that do not overlap lie apart on one side or the other (R35). -/
theorem rangesOverlap_eq_false_iff {r q : AddressRange} :
    rangesOverlap r q = false ↔ q.endAddress ≤ r.beginAddress ∨ r.endAddress ≤ q.beginAddress := by
  simp only [rangesOverlap, decide_eq_false_iff_not]
  omega

/-- Inserting a range that overlaps none keeps the order. -/
theorem pairwise_insertRange {r : AddressRange} {l : List AddressRange} (hr : r.beginAddress < r.endAddress)
    (hne : ∀ q ∈ l, q.beginAddress < q.endAddress) (hov : ∀ q ∈ l, rangesOverlap r q = false)
    (hl : l.Pairwise (fun r q => r.endAddress ≤ q.beginAddress)) :
    (insertRange r l).Pairwise (fun r q => r.endAddress ≤ q.beginAddress) := by
  induction l with
  | nil => exact List.pairwise_singleton _ _
  | cons q l ih =>
    have hq := hne q List.mem_cons_self
    have hrq := rangesOverlap_eq_false_iff.1 (hov q List.mem_cons_self)
    obtain ⟨hafter, hl'⟩ := List.pairwise_cons.1 hl
    unfold insertRange
    split
    · next hle =>
      refine List.pairwise_cons.2 ⟨fun x hx => ?_, hl⟩
      obtain rfl | hx := List.mem_cons.1 hx
      · omega
      · have := hafter x hx; omega
    · next hlt =>
      refine List.pairwise_cons.2 ⟨fun x hx => ?_, ih (fun x hx => hne x (List.mem_cons_of_mem q hx))
        (fun x hx => hov x (List.mem_cons_of_mem q hx)) hl'⟩
      obtain rfl | hx := mem_insertRange.1 hx
      · omega
      · exact hafter x hx

theorem Dispatcher.register_engine (bs : List HostBlock) (disp : Dispatcher) (r : AddressRange) :
    (Dispatcher.register bs disp r).engine = disp.engine := by
  unfold Dispatcher.register; split <;> rfl

theorem Dispatcher.mem_mapRange_mapped {bs : List HostBlock} {disp : Dispatcher} {r q : AddressRange} :
    q ∈ (Dispatcher.mapRange bs disp r).mapped ↔ q = r ∨ q ∈ disp.mapped := by
  unfold Dispatcher.mapRange
  dsimp only
  split
  · next hr => exact ⟨.inr, fun h => h.elim (fun h => h ▸ hr) id⟩
  · rw [List.mem_append, List.mem_singleton, or_comm]

theorem Dispatcher.mem_register_mapped {bs : List HostBlock} {disp : Dispatcher} {r q : AddressRange} :
    q ∈ (Dispatcher.register bs disp r).mapped ↔ (disp.engine.isSome = true ∧ q = r) ∨ q ∈ disp.mapped := by
  unfold Dispatcher.register
  dsimp only
  split
  · next he => simp [Dispatcher.mem_mapRange_mapped, he]
  · next he => simp [he]

theorem Dispatcher.register_engineMap (bs : List HostBlock) (disp : Dispatcher) (r : AddressRange) :
    (Dispatcher.register bs disp r).engineMap =
      disp.engineMap ++ (if disp.engine.isSome then mappingsOf bs r else []) := by
  unfold Dispatcher.register
  dsimp only
  split
  · rfl
  · exact (List.append_nil _).symm

/-! ## Unregistration (R136) -/

theorem Dispatcher.mem_unregister_ranges {bs : List HostBlock} {disp : Dispatcher} {r q : AddressRange} :
    q ∈ (Dispatcher.unregister bs disp r).ranges ↔ q ∈ disp.ranges ∧ q ≠ r := by
  simp [Dispatcher.unregister_ranges]

theorem Dispatcher.unregister_engine (bs : List HostBlock) (disp : Dispatcher) (r : AddressRange) :
    (Dispatcher.unregister bs disp r).engine = disp.engine := by
  unfold Dispatcher.unregister; dsimp only; split <;> rfl

theorem Dispatcher.unregister_of_mapped {bs : List HostBlock} {disp : Dispatcher} {r : AddressRange}
    (he : disp.engine ≠ none) (hr : r ∈ disp.mapped) :
    (∀ q, q ∈ (Dispatcher.unregister bs disp r).mapped ↔ q ∈ disp.mapped ∧ q ≠ r) ∧
      ∀ x, x ∈ (Dispatcher.unregister bs disp r).engineMap ↔ x ∈ disp.engineMap ∧ x ∉ mappingsOf bs r := by
  have hmap : disp.engine.isSome ∧ r ∈ disp.mapped := ⟨Option.isSome_iff_ne_none.2 he, hr⟩
  unfold Dispatcher.unregister
  rw [if_pos hmap]
  simp [Dispatcher.unmapRange]

theorem Dispatcher.unregister_of_unmapped {bs : List HostBlock} {disp : Dispatcher} {r : AddressRange}
    (h : disp.engine = none ∨ r ∉ disp.mapped) :
    (Dispatcher.unregister bs disp r).mapped = disp.mapped ∧
      (Dispatcher.unregister bs disp r).engineMap = disp.engineMap := by
  have hmap : ¬(disp.engine.isSome ∧ r ∈ disp.mapped) := by
    rintro ⟨he, hr⟩
    obtain h | h := h
    · simp [h] at he
    · exact h hr
  unfold Dispatcher.unregister
  rw [if_neg hmap]
  exact ⟨rfl, rfl⟩

/-! ## Attaching and detaching an engine (R140, R141) -/

theorem Dispatcher.foldl_mapRange_engine (bs : List HostBlock) (l : List AddressRange) (disp : Dispatcher) :
    (l.foldl (Dispatcher.mapRange bs) disp).engine = disp.engine := by
  induction l generalizing disp with
  | nil => rfl
  | cons r l ih => rw [List.foldl_cons, ih]; rfl

theorem Dispatcher.mem_foldl_mapRange_mapped {bs : List HostBlock} {l : List AddressRange} {disp : Dispatcher}
    {q : AddressRange} : q ∈ (l.foldl (Dispatcher.mapRange bs) disp).mapped ↔ q ∈ disp.mapped ∨ q ∈ l := by
  induction l generalizing disp with
  | nil => simp
  | cons r l ih => rw [List.foldl_cons, ih, Dispatcher.mem_mapRange_mapped, List.mem_cons]; tauto

theorem Dispatcher.foldl_mapRange_engineMap (bs : List HostBlock) (l : List AddressRange) (disp : Dispatcher) :
    (l.foldl (Dispatcher.mapRange bs) disp).engineMap = disp.engineMap ++ l.flatMap (mappingsOf bs) := by
  induction l generalizing disp with
  | nil => simp
  | cons r l ih => rw [List.foldl_cons, ih, List.flatMap_cons, ← List.append_assoc]; rfl

theorem Dispatcher.mem_foldl_unmapRange_mapped {bs : List HostBlock} {l : List AddressRange} {disp : Dispatcher}
    {q : AddressRange} : q ∈ (l.foldl (Dispatcher.unmapRange bs) disp).mapped ↔ q ∈ disp.mapped ∧ q ∉ l := by
  induction l generalizing disp with
  | nil => simp
  | cons r l ih =>
    rw [List.foldl_cons, ih, List.mem_cons]
    simp [Dispatcher.unmapRange]
    tauto

theorem Dispatcher.mem_foldl_unmapRange_engineMap {bs : List HostBlock} {l : List AddressRange} {disp : Dispatcher}
    {x : Mapping} : x ∈ (l.foldl (Dispatcher.unmapRange bs) disp).engineMap ↔
      x ∈ disp.engineMap ∧ ∀ r ∈ l, x ∉ mappingsOf bs r := by
  induction l generalizing disp with
  | nil => simp
  | cons r l ih =>
    rw [List.foldl_cons, ih, List.forall_mem_cons]
    simp [Dispatcher.unmapRange]
    tauto

/-! ## Tiles (R140) -/

theorem mem_mappingsOf {bs : List HostBlock} {r : AddressRange} {x : Mapping} :
    x ∈ mappingsOf bs r ↔ ∃ m b, r.handler = .memory m ∧ bs[m]? = some b ∧ x ∈ rangeTiles r m b := by
  unfold mappingsOf hostBlockOf
  cases hr : r.handler with
  | port dev => simp
  | memory m => cases hb : bs[m]? <;> simp [hb]

/-- Tile `k` of a range begins `k` blocks from its beginning, and ends at the block's end or at the range's. -/
theorem mem_rangeTiles {r : AddressRange} {m : Nat} {b : HostBlock} {x : Mapping} :
    x ∈ rangeTiles r m b ↔ ∃ k, r.beginAddress + k * b.size < r.endAddress ∧ 0 < b.size ∧
      x = { base := r.beginAddress + k * b.size,
            limit := r.beginAddress + k * b.size + min b.size (r.endAddress - (r.beginAddress + k * b.size)),
            block := m, permissions := b.permissions } := by
  simp only [rangeTiles, List.mem_map, List.mem_range]
  constructor
  · rintro ⟨k, hk, rfl⟩
    obtain hz | hpos := Nat.eq_zero_or_pos b.size
    · simp [hz] at hk
    · refine ⟨k, ?_, hpos, rfl⟩
      have hk' := (Nat.le_div_iff_mul_le hpos).1 (Nat.succ_le_of_lt hk)
      rw [Nat.succ_mul] at hk'
      omega
  · rintro ⟨k, hk, hpos, rfl⟩
    refine ⟨k, Nat.lt_of_succ_le ((Nat.le_div_iff_mul_le hpos).2 ?_), rfl⟩
    rw [Nat.succ_mul]
    omega

/-- Every tile of a range begins within it. -/
theorem mappingsOf_base {bs : List HostBlock} {r : AddressRange} {x : Mapping} (hx : x ∈ mappingsOf bs r) :
    r.beginAddress ≤ x.base ∧ x.base < r.endAddress := by
  obtain ⟨m, b, -, -, hx⟩ := mem_mappingsOf.1 hx
  obtain ⟨k, hk, -, rfl⟩ := mem_rangeTiles.1 hx
  exact ⟨Nat.le_add_right _ _, hk⟩

/-- Two ranges of one table lie apart. -/
theorem Dispatcher.Inv.apart_or {disp : Dispatcher} (h : disp.Inv) {r q : AddressRange} (hr : r ∈ disp.ranges)
    (hq : q ∈ disp.ranges) (hne : r ≠ q) : r.endAddress ≤ q.beginAddress ∨ q.endAddress ≤ r.beginAddress := by
  have hapart : disp.ranges.Pairwise
      (fun r q => r.endAddress ≤ q.beginAddress ∨ q.endAddress ≤ r.beginAddress) := h.apart.imp .inl
  have : Std.Symm fun r q : AddressRange => r.endAddress ≤ q.beginAddress ∨ q.endAddress ≤ r.beginAddress :=
    ⟨fun _ _ => Or.symm⟩
  exact hapart.forall hr hq hne

/-- The tiles of two ranges of one table differ. -/
theorem Dispatcher.Inv.eq_of_mem_mappingsOf {disp : Dispatcher} (h : disp.Inv) {bs : List HostBlock}
    {r q : AddressRange} {x : Mapping} (hr : r ∈ disp.ranges) (hq : q ∈ disp.ranges) (hxr : x ∈ mappingsOf bs r)
    (hxq : x ∈ mappingsOf bs q) : r = q := by
  by_contra hne
  have := h.apart_or hr hq hne
  have := mappingsOf_base hxr
  have := mappingsOf_base hxq
  omega

/-! ## The ranges stay apart -/

theorem Dispatcher.Inv.of_ranges {disp disp' : Dispatcher} (h : disp'.ranges = disp.ranges) (hd : disp.Inv) :
    disp'.Inv :=
  ⟨h ▸ hd.nonempty, h ▸ hd.apart⟩

theorem Dispatcher.Inv.unregister {disp : Dispatcher} (h : disp.Inv) (bs : List HostBlock) (r : AddressRange) :
    (Dispatcher.unregister bs disp r).Inv := by
  constructor
  · intro q hq
    exact h.nonempty q (Dispatcher.mem_unregister_ranges.1 hq).1
  · rw [Dispatcher.unregister_ranges]
    exact h.apart.filter _

theorem DispatcherChange.keeps_inv {bs : List HostBlock} {disp disp' : Dispatcher}
    (h : DispatcherChange bs disp disp') (hd : disp.Inv) : disp'.Inv := by
  cases h with
  | register r hr hov _ =>
    have hov' : ∀ q ∈ disp.ranges, rangesOverlap r q = false := by simpa using hov
    constructor
    · intro q hq
      rw [Dispatcher.register_ranges] at hq
      obtain rfl | hq := mem_insertRange.1 hq
      · exact hr
      · exact hd.nonempty q hq
    · rw [Dispatcher.register_ranges]
      exact pairwise_insertRange hr hd.nonempty hov' hd.apart
  | unregister r => exact hd.unregister bs r
  | attach b _ => exact .of_ranges (disp := disp) (Dispatcher.foldl_mapRange_ranges bs _ _) hd
  | detach => exact hd.of_ranges (Dispatcher.foldl_unmapRange_ranges bs _ disp)

theorem State.dispatcherInv_iff {s : State} : s.DispatcherInv ↔ ∀ sp, (s.dispatcher sp).Inv :=
  ⟨fun ⟨hio, hmem⟩ sp => by cases sp <;> assumption, fun h => ⟨h .io, h .mem⟩⟩

theorem State.DispatcherInv.of_dispatchers {s t : State} (h : ∀ sp, t.dispatcher sp = s.dispatcher sp)
    (hs : s.DispatcherInv) : t.DispatcherInv :=
  State.dispatcherInv_iff.2 fun sp => h sp ▸ State.dispatcherInv_iff.1 hs sp

theorem Effect.keeps_dispatcherInv {i : Instr} {s t : State} (h : Effect i s t) (hs : s.DispatcherInv) :
    t.DispatcherInv := by
  refine State.dispatcherInv_iff.2 fun sp => ?_
  have hsp := State.dispatcherInv_iff.1 hs sp
  obtain hsame | hchange := h.dispatchers sp
  · rwa [hsame]
  · exact hchange.keeps_inv hsp

/-- No word call, destruction or construction touches a dispatcher. -/
theorem EventEffect.dispatchers {e : Event} {s t : State} (h : EventEffect s e t) (sp : Space) :
    t.dispatcher sp = s.dispatcher sp := by
  cases h with
  | join d => exact (s.joinWorker_quiet d).bus.dispatcher sp
  | device d _ => exact (State.commitDevice_spec (.refl s) (.refl s) (.refl s)).2.2.2.1.dispatcher sp
  | outermostPic | chainedPic l q _ _ => cases sp <;> rfl
  | _ => simp

/-! ## The mappings agree with the table -/

/-- The blocks of `bs` are still there in `cs`, with their size and permissions. -/
def SameShapes (bs cs : List HostBlock) : Prop :=
  ∀ (m : Nat) (b : HostBlock), bs[m]? = some b →
    ∃ c : HostBlock, cs[m]? = some c ∧ c.size = b.size ∧ c.permissions = b.permissions

theorem SameShapes.refl (bs : List HostBlock) : SameShapes bs bs := fun _ b h => ⟨b, h, rfl, rfl⟩

theorem SameShapes.of_eq {bs cs : List HostBlock} (h : cs = bs) : SameShapes bs cs := h ▸ .refl bs

theorem SameShapes.length_le {bs cs : List HostBlock} (h : SameShapes bs cs) : bs.length ≤ cs.length := by
  by_contra hlt
  obtain ⟨c, hc, -⟩ := h cs.length _ (List.getElem?_eq_getElem (Nat.lt_of_not_le hlt))
  simp at hc

/-- Tiles depend on the shape of the block only. -/
theorem SameShapes.mappingsOf_eq {bs cs : List HostBlock} (h : SameShapes bs cs) {r : AddressRange}
    (hr : ∀ m, r.handler = .memory m → m < bs.length) : mappingsOf cs r = mappingsOf bs r := by
  unfold mappingsOf hostBlockOf
  cases hh : r.handler with
  | port dev => rfl
  | memory m =>
    have hb := List.getElem?_eq_getElem (hr m hh)
    obtain ⟨c, hc, hsize, hperm⟩ := h m _ hb
    simp only [hb, hc, Option.map_some, rangeTiles, hsize, hperm]

theorem Dispatcher.MappingInv.of_shapes {bs cs : List HostBlock} (h : SameShapes bs cs) {disp : Dispatcher}
    (hd : disp.MappingInv bs) : disp.MappingInv cs := by
  refine ⟨fun r hr m hm => (hd.backed r hr m hm).trans_le h.length_le, fun he => ?_, hd.detached⟩
  obtain ⟨hmapped, htiles⟩ := hd.attached he
  refine ⟨hmapped, fun x => (htiles x).trans (exists_congr fun r => and_congr_right fun hr => ?_)⟩
  rw [h.mappingsOf_eq (hd.backed r hr)]

theorem Dispatcher.MappingInv.register {bs : List HostBlock} {disp : Dispatcher} (h : disp.MappingInv bs)
    {r : AddressRange} (hr : ∀ m, r.handler = .memory m → m < bs.length) :
    (Dispatcher.register bs disp r).MappingInv bs := by
  constructor
  case backed =>
    intro q hq
    rw [Dispatcher.register_ranges] at hq
    obtain rfl | hq := mem_insertRange.1 hq
    · exact hr
    · exact h.backed q hq
  case attached =>
    rw [Dispatcher.register_engine]
    intro he
    obtain ⟨hmapped, htiles⟩ := h.attached he
    have hsome : disp.engine.isSome = true := Option.isSome_iff_ne_none.2 he
    refine ⟨fun q => ?_, fun x => ?_⟩
    · rw [Dispatcher.mem_register_mapped, Dispatcher.register_ranges, mem_insertRange, hmapped]
      simp [hsome]
    · rw [Dispatcher.register_engineMap, Dispatcher.register_ranges, if_pos hsome, List.mem_append, htiles]
      simp only [mem_insertRange, or_and_right, exists_or, exists_eq_left]
      exact or_comm
  case detached =>
    rw [Dispatcher.register_engine]
    intro he
    obtain ⟨hmapped, htiles⟩ := h.detached he
    refine ⟨List.eq_nil_iff_forall_not_mem.2 fun q => ?_, ?_⟩
    · simp [Dispatcher.mem_register_mapped, he, hmapped]
    · simp [Dispatcher.register_engineMap, he, htiles]

theorem Dispatcher.MappingInv.unregister {bs : List HostBlock} {disp : Dispatcher} (h : disp.MappingInv bs)
    (hd : disp.Inv) (r : AddressRange) : (Dispatcher.unregister bs disp r).MappingInv bs := by
  constructor
  case backed =>
    intro q hq
    exact h.backed q (Dispatcher.mem_unregister_ranges.1 hq).1
  case attached =>
    rw [Dispatcher.unregister_engine]
    intro he
    obtain ⟨hmapped, htiles⟩ := h.attached he
    by_cases hr : r ∈ disp.mapped
    · obtain ⟨hmapped', htiles'⟩ := Dispatcher.unregister_of_mapped (bs := bs) he hr
      refine ⟨fun q => by rw [hmapped', hmapped, Dispatcher.mem_unregister_ranges], fun x => ?_⟩
      rw [htiles', htiles]
      constructor
      · rintro ⟨⟨q, hq, hx⟩, hxr⟩
        exact ⟨q, Dispatcher.mem_unregister_ranges.2 ⟨hq, fun he => hxr (he ▸ hx)⟩, hx⟩
      · rintro ⟨q, hq, hx⟩
        obtain ⟨hq, hne⟩ := Dispatcher.mem_unregister_ranges.1 hq
        exact ⟨⟨q, hq, hx⟩, fun hxr => hne (hd.eq_of_mem_mappingsOf hq ((hmapped r).1 hr) hx hxr)⟩
    · obtain ⟨hmapped', htiles'⟩ := Dispatcher.unregister_of_unmapped (bs := bs) (.inr hr)
      have hranges : ∀ q, q ∈ (Dispatcher.unregister bs disp r).ranges ↔ q ∈ disp.ranges := fun q =>
        Dispatcher.mem_unregister_ranges.trans
          (and_iff_left_of_imp fun hq he => hr ((hmapped r).2 (he ▸ hq)))
      exact ⟨fun q => by rw [hmapped', hmapped, hranges], fun x => by simp only [htiles', htiles, hranges]⟩
  case detached =>
    rw [Dispatcher.unregister_engine]
    intro he
    obtain ⟨hmapped', htiles'⟩ := Dispatcher.unregister_of_unmapped (bs := bs) (r := r) (.inl he)
    rw [hmapped', htiles']
    exact h.detached he

theorem Dispatcher.MappingInv.attach {bs : List HostBlock} {disp : Dispatcher} (h : disp.MappingInv bs)
    (hnone : disp.engine = none) (b : EngineBinding) :
    (disp.ranges.foldl (Dispatcher.mapRange bs) { disp with engine := some b }).MappingInv bs := by
  obtain ⟨hmapped, htiles⟩ := h.detached hnone
  constructor
  case backed => rw [Dispatcher.foldl_mapRange_ranges]; exact h.backed
  case attached =>
    intro _
    rw [Dispatcher.foldl_mapRange_ranges, Dispatcher.foldl_mapRange_engineMap]
    exact ⟨fun q => by simp [Dispatcher.mem_foldl_mapRange_mapped, hmapped], fun x => by simp [htiles]⟩
  case detached =>
    rw [Dispatcher.foldl_mapRange_engine]
    intro he
    cases he

theorem Dispatcher.MappingInv.detach {bs : List HostBlock} {disp : Dispatcher} (h : disp.MappingInv bs) :
    ({ disp.mapped.foldl (Dispatcher.unmapRange bs) disp with engine := none } : Dispatcher).MappingInv bs := by
  constructor
  case backed =>
    show ∀ r ∈ (disp.mapped.foldl (Dispatcher.unmapRange bs) disp).ranges, _
    rw [Dispatcher.foldl_unmapRange_ranges]
    exact h.backed
  case attached => exact fun he => absurd rfl he
  case detached =>
    refine fun _ => ⟨List.eq_nil_iff_forall_not_mem.2 fun q hq => ?_, List.eq_nil_iff_forall_not_mem.2 fun x hx => ?_⟩
    · obtain ⟨hq, hnot⟩ := Dispatcher.mem_foldl_unmapRange_mapped.1 hq
      exact hnot hq
    · obtain ⟨hx, hnone⟩ := Dispatcher.mem_foldl_unmapRange_engineMap.1 hx
      by_cases he : disp.engine = none
      · rw [(h.detached he).2] at hx
        exact List.not_mem_nil hx
      · obtain ⟨hmapped, htiles⟩ := h.attached he
        obtain ⟨r, hr, hxr⟩ := (htiles x).1 hx
        exact hnone r ((hmapped r).2 hr) hxr

theorem DispatcherChange.keeps_mappingInv {bs : List HostBlock} {disp disp' : Dispatcher}
    (h : DispatcherChange bs disp disp') (hd : disp.Inv) (hm : disp.MappingInv bs) : disp'.MappingInv bs := by
  cases h with
  | register r _ _ hr => exact hm.register hr
  | unregister r => exact hm.unregister hd r
  | attach b hnone => exact hm.attach hnone b
  | detach => exact hm.detach

theorem State.mappingInv_iff {s : State} : s.MappingInv ↔ ∀ sp, (s.dispatcher sp).MappingInv s.hostBlocks :=
  ⟨fun ⟨hio, hmem⟩ sp => by cases sp <;> assumption, fun h => ⟨h .io, h .mem⟩⟩

theorem State.MappingInv.of_dispatchers {s t : State} (h : ∀ sp, t.dispatcher sp = s.dispatcher sp)
    (hblocks : SameShapes s.hostBlocks t.hostBlocks) (hs : s.MappingInv) : t.MappingInv :=
  State.mappingInv_iff.2 fun sp => h sp ▸ (State.mappingInv_iff.1 hs sp).of_shapes hblocks

theorem Effect.keeps_mappingInv {i : Instr} {s t : State} (h : Effect i s t) (hd : s.DispatcherInv)
    (hs : s.MappingInv) : t.MappingInv := by
  refine State.mappingInv_iff.2 fun sp => ?_
  have hsp := State.mappingInv_iff.1 hs sp
  rw [h.hostBlocks]
  obtain hsame | hchange := h.dispatchers sp
  · rwa [hsame]
  · exact hchange.keeps_mappingInv (State.dispatcherInv_iff.1 hd sp) hsp

/-! ## Word calls and the shape of a block -/

/-- A lane that a word write stores. -/
def HostBlock.storeLane (c : WordCall) (b : HostBlock) (j : Nat) : HostBlock :=
  if maskLane c.mask j then
    { b with cells := Memory.write b.cells ((c.address + j) % b.size) (quadByte c.data j) }
  else b

theorem HostBlock.writeWord_eq (b : HostBlock) (w : Nat) (c : WordCall) :
    b.writeWord w c = (List.range w).foldl (HostBlock.storeLane c) b := rfl

theorem HostBlock.storeLane_shape (c : WordCall) (b : HostBlock) (j : Nat) :
    (b.storeLane c j).size = b.size ∧ (b.storeLane c j).permissions = b.permissions ∧
      (b.storeLane c j).word = b.word := by
  unfold HostBlock.storeLane
  split <;> exact ⟨rfl, rfl, rfl⟩

theorem HostBlock.foldl_storeLane_shape (c : WordCall) (l : List Nat) (b : HostBlock) :
    (l.foldl (HostBlock.storeLane c) b).size = b.size ∧
      (l.foldl (HostBlock.storeLane c) b).permissions = b.permissions ∧
      (l.foldl (HostBlock.storeLane c) b).word = b.word := by
  induction l generalizing b with
  | nil => exact ⟨rfl, rfl, rfl⟩
  | cons j l ih =>
    obtain ⟨hs, hp, hw⟩ := ih (b.storeLane c j)
    obtain ⟨hs', hp', hw'⟩ := b.storeLane_shape c j
    exact ⟨hs.trans hs', hp.trans hp', hw.trans hw'⟩

theorem HostBlock.writeWord_shape (b : HostBlock) (w : Nat) (c : WordCall) :
    (b.writeWord w c).size = b.size ∧ (b.writeWord w c).permissions = b.permissions ∧
      (b.writeWord w c).word = b.word :=
  HostBlock.foldl_storeLane_shape c (List.range w) b

/-- No event changes the shape of a block that exists. -/
theorem EventEffect.sameShapes {e : Event} {s t : State} (h : EventEffect s e t) :
    SameShapes s.hostBlocks t.hostBlocks := by
  cases h with
  | wordWrite m w x mask data b hb =>
    intro k c hc
    rw [State.setHostBlocks_hostBlocks]
    by_cases hk : k = m
    · subst hk
      obtain rfl : b = c := Option.some.inj (hb.symm.trans hc)
      obtain ⟨hsize, hperm, -⟩ := b.writeWord_shape w { address := x, mask := mask, data := data }
      exact ⟨_, List.getElem?_set_self (List.getElem?_eq_some_iff.1 hb).1, hsize, hperm⟩
    · exact ⟨c, by rw [List.getElem?_set_ne (Ne.symm hk), hc], rfl, rfl⟩
  | memory size permissions word _ _ =>
    intro k c hc
    exact ⟨c, (List.getElem?_append_left (List.getElem?_eq_some_iff.1 hc).1).trans hc, rfl, rfl⟩
  | join d => exact .of_eq (s.joinWorker_quiet d).bus.hostBlocks
  | device d _ => exact .of_eq (State.commitDevice_spec (.refl s) (.refl s) (.refl s)).2.2.2.1.hostBlocks
  | _ => exact .of_eq (by simp)

/-- Settles O57: a table changes in the ways of `DispatcherChange`, and a host block keeps its shape. -/
theorem stepKeepsRangesApart : Obligations.StepKeepsRangesApart := by
  have hranges : ∀ s t : State, s.DispatcherInv → step s = .next t → t.DispatcherInv :=
    step_keeps (fun _ _ h hs => hs.of_dispatchers h.dispatchers) (fun _ _ _ h => h.keeps_dispatcherInv)
      (fun _ _ _ h hs => hs.of_dispatchers h.dispatchers)
  have hboth : ∀ s t : State, s.DispatcherInv ∧ s.MappingInv → step s = .next t → t.DispatcherInv ∧ t.MappingInv :=
    step_keeps
      (fun _ _ h hs => ⟨hs.1.of_dispatchers h.dispatchers, hs.2.of_dispatchers h.dispatchers (.of_eq h.hostBlocks)⟩)
      (fun _ _ _ h hs => ⟨h.keeps_dispatcherInv hs.1, h.keeps_mappingInv hs.1 hs.2⟩)
      (fun _ _ _ h hs => ⟨hs.1.of_dispatchers h.dispatchers, hs.2.of_dispatchers h.dispatchers h.sameShapes⟩)
  exact ⟨hranges, fun s t hd hm hstep => (hboth s t ⟨hd, hm⟩ hstep).2⟩

end Sys2Proof.Machine

/-! SUPPORT. The transfer engine and the memories (R39, R43, R71, R224 to R235, R273): what a command and each other
change of a device make of the open transfer, the operation in progress, the buffer and the store, and that every step
keeps them consistent and in their canonical form. -/
namespace Sys2Proof.Machine

/-! ## What a command can do (R240 to R252) -/

/-- What `executeCommand` can make of a device. -/
inductive CommandChange (dev : AtaDevice) : AtaDevice → Prop
  | unchanged : CommandChange dev dev
  | geometry (g : Geometry) : CommandChange dev { dev with geometry := some g }
  | multipleBlock (n : Nat) : CommandChange dev { dev with multipleBlock := n }
  | pio8 (b : Bool) : CommandChange dev { dev with pio8 := b }
  | read (lba n chunk : Nat) : 0 < chunk → 0 < n → n ≤ 256 →
      CommandChange dev
        (((dev.beginOperation .read lba n chunk).loadSectors lba (min chunk n)).startPio .pioRead (512 * min chunk n))
  | write (lba n chunk : Nat) : 0 < chunk → 0 < n → n ≤ 256 →
      CommandChange dev ((dev.beginOperation .write lba n chunk).startPio .pioWrite (512 * min chunk n))
  | identify : CommandChange dev
      (({ dev with buffer := bufferPut dev.buffer 0 (identifyData dev.disk), op := none } : AtaDevice).startPio
        .pioRead 512)

theorem sectorCount_bounds (rec : RegFile) : 0 < sectorCount rec ∧ sectorCount rec ≤ 256 := by
  unfold sectorCount
  split
  · omega
  · next h =>
    have hpos : rec.sectorCount.toNat ≠ 0 := fun h0 => h (BitVec.eq_of_toNat_eq h0)
    have := rec.sectorCount.isLt
    omega

theorem succeed_eq_next {dev : AtaDevice} {e : Executed} (h : succeed dev = .next e) : e.dev = dev := by
  cases h; rfl

theorem abort_eq_next {dev : AtaDevice} {e : Executed} (h : abort dev = .next e) : e.dev = dev := by
  cases h; rfl

theorem readCommand_change {chunk : Nat} {dev : AtaDevice} {rec : RegFile} {e : Executed} (hchunk : 0 < chunk)
    (h : readCommand chunk dev rec = .next e) : CommandChange dev e.dev := by
  obtain ⟨hpos, hle⟩ := sectorCount_bounds rec
  unfold readCommand at h
  split at h
  · rw [abort_eq_next h]; exact .unchanged
  · dsimp only at h
    split at h
    · rw [succeed_eq_next h]; exact .read _ _ _ hchunk hpos hle
    · cases h

theorem writeCommand_change {chunk : Nat} {dev : AtaDevice} {rec : RegFile} {e : Executed} (hchunk : 0 < chunk)
    (h : writeCommand chunk dev rec = .next e) : CommandChange dev e.dev := by
  obtain ⟨hpos, hle⟩ := sectorCount_bounds rec
  unfold writeCommand at h
  split at h
  · rw [abort_eq_next h]; exact .unchanged
  · rw [succeed_eq_next h]; exact .write _ _ _ hchunk hpos hle

section Effects
variable {d : Drive} {dev : AtaDevice} {rec : RegFile} {e : Executed}

theorem commandReadMultiple_change (h : commandReadMultiple d dev rec = .next e) : CommandChange dev e.dev := by
  unfold commandReadMultiple at h
  split at h
  · rw [abort_eq_next h]; exact .unchanged
  · next hchunk => exact readCommand_change (Nat.pos_of_ne_zero hchunk) h

theorem commandWriteMultiple_change (h : commandWriteMultiple d dev rec = .next e) : CommandChange dev e.dev := by
  unfold commandWriteMultiple at h
  split at h
  · rw [abort_eq_next h]; exact .unchanged
  · next hchunk => exact writeCommand_change (Nat.pos_of_ne_zero hchunk) h

theorem commandInitializeDriveParameters_change (h : commandInitializeDriveParameters d dev rec = .next e) :
    CommandChange dev e.dev := by
  unfold commandInitializeDriveParameters at h
  split at h
  · rw [abort_eq_next h]; exact .unchanged
  · rw [succeed_eq_next h]; exact .geometry _

theorem commandSetMultipleMode_change (h : commandSetMultipleMode d dev rec = .next e) : CommandChange dev e.dev := by
  unfold commandSetMultipleMode at h
  split at h
  · rw [abort_eq_next h]; exact .unchanged
  · rw [succeed_eq_next h]; exact .multipleBlock _

theorem commandSetFeatures_change (h : commandSetFeatures d dev rec = .next e) : CommandChange dev e.dev := by
  unfold commandSetFeatures at h
  split_ifs at h
  · rw [succeed_eq_next h]; exact .pio8 true
  · rw [succeed_eq_next h]; exact .pio8 false
  · rw [abort_eq_next h]; exact .unchanged

end Effects

theorem commandEffect_change {b : Byte} {d : Drive} {dev : AtaDevice} {rec : RegFile} {e : Executed}
    (h : commandEffect b d dev rec = .next e) : CommandChange dev e.dev := by
  unfold commandEffect at h
  split at h
  · rw [succeed_eq_next h]; exact .unchanged
  split at h
  · exact readCommand_change Nat.one_pos h
  split at h
  · exact writeCommand_change Nat.one_pos h
  split at h
  · exact commandInitializeDriveParameters_change h
  split at h
  · exact commandReadMultiple_change h
  split at h
  · exact commandWriteMultiple_change h
  split at h
  · exact commandSetMultipleMode_change h
  split at h
  · rw [succeed_eq_next h]; exact .identify
  split at h
  · exact commandSetFeatures_change h
  · rw [abort_eq_next h]; exact .unchanged

/-! ## The transfer engine -/

/-- The status bits that an access or a result touches leave DRQ alone. -/
theorem drqBit_or_busy (b : Byte) : (b ||| ataBusy) &&& ataDrq = b &&& ataDrq := by
  revert b; decide

theorem drqBit_or_drq (b : Byte) : (b ||| ataDrq) &&& ataDrq = ataDrq := by
  revert b; decide

theorem drqBit_clear_drq (b : Byte) : b &&& ~~~ataDrq &&& ataDrq = 0 := by
  revert b; decide

theorem drqBit_mergeStatus (b res : Byte) : mergeStatus b res &&& ~~~ataBusy &&& ataDrq = b &&& ataDrq := by
  have hkept : (0x88 : Byte) &&& ~~~ataBusy &&& ataDrq = ataDrq := by decide
  have hmerged : (0x77 : Byte) &&& ~~~ataBusy &&& ataDrq = 0 := by decide
  simp only [mergeStatus, ataKept, ataMerged, BitVec.and_or_distrib_right, BitVec.and_assoc] at *
  rw [hkept, hmerged]
  simp

/-- What the invariant speaks of is as before. -/
structure AtaDevice.SameTransfer (dev dev' : AtaDevice) : Prop where
  drq : dev'.drq = dev.drq
  xfer : dev'.xfer = dev.xfer
  cursor : dev'.cursor = dev.cursor
  length : dev'.length = dev.length
  buffer : dev'.buffer = dev.buffer
  op : dev'.op = dev.op

theorem AtaDevice.Inv.of_same {dev dev' : AtaDevice} (hd : dev.Inv) (h : dev.SameTransfer dev') : dev'.Inv := by
  obtain ⟨hdrq, hxfer, hcursor, hlength, hbuffer, hop⟩ := h
  constructor
  · rw [hdrq, hxfer, hd.drq]
  · rw [hcursor, hlength]; exact hd.bounds
  · rw [hcursor, hlength, hxfer]; exact hd.transfer
  · rw [hbuffer]; exact hd.buffer
  · rw [hop]; exact hd.operation

/-- What the invariant says of the buffer and of the operation in progress, whatever the transfer. -/
structure AtaDevice.ContentsInv (dev : AtaDevice) : Prop where
  buffer : ∀ c ∈ dev.buffer, c.1 < 131072
  operation : ∀ op, dev.op = some op → 0 < op.chunk ∧ 0 < op.remaining ∧ op.remaining ≤ 256

/-- With the transfer idle and DRQ clear nothing more is asked. -/
theorem AtaDevice.Inv.of_idle {dev : AtaDevice} (h : dev.ContentsInv) (hdrq : dev.drq = false)
    (hxfer : dev.xfer = .idle)
    (hbounds : dev.cursor ≤ dev.length ∧ dev.length ≤ 131072) : dev.Inv :=
  ⟨by simp [hdrq, hxfer], hbounds, fun hne => absurd hxfer hne, h.buffer, h.operation⟩

@[simp] theorem AtaDevice.setStatus_busy_drq (dev : AtaDevice) : (dev.setStatus ataBusy).drq = dev.drq := by
  simp only [AtaDevice.drq, AtaDevice.setStatus, drqBit_or_busy]

@[simp] theorem AtaDevice.setStatus_drq_drq (dev : AtaDevice) : (dev.setStatus ataDrq).drq = true := by
  simp only [AtaDevice.drq, AtaDevice.setStatus, drqBit_or_drq]
  decide

@[simp] theorem AtaDevice.clearStatus_drq_drq (dev : AtaDevice) : (dev.clearStatus ataDrq).drq = false := by
  simp only [AtaDevice.drq, AtaDevice.clearStatus, drqBit_clear_drq]
  decide

/-- A transfer of whole sectors that fit the buffer is open after `pioRead` or `pioWrite` (R224, R225). -/
theorem AtaDevice.startPio_inv {dev : AtaDevice} {x : Xfer} {k : Nat} (h : dev.ContentsInv) (hx : x ≠ .idle)
    (hpos : 0 < k) (hle : k ≤ 256) : (dev.startPio x (512 * k)).Inv where
  drq := by
    have hopen : decide ((dev.startPio x (512 * k)).xfer ≠ .idle) = true := decide_eq_true hx
    rw [hopen, AtaDevice.startPio, AtaDevice.setStatus_drq_drq]
  bounds := ⟨Nat.zero_le _, by show 512 * k ≤ 131072; omega⟩
  transfer := fun _ => ⟨by show 0 < 512 * k; omega, Nat.mul_mod_right 512 k⟩
  buffer := h.buffer
  operation := h.operation

theorem Operation.advance_eq_some {op next : Operation} {k : Nat} (h : op.advance k = some next) :
    next = { op with lba := op.lba + k, remaining := op.remaining - k } ∧ 0 < op.remaining - k := by
  unfold Operation.advance at h
  split at h
  · cases h
  · next hne => exact ⟨(Option.some.inj h).symm, Nat.pos_of_ne_zero hne⟩

theorem AtaDevice.endReadChunk_inv {dev : AtaDevice} (h : dev.ContentsInv)
    (hbounds : dev.cursor ≤ dev.length ∧ dev.length ≤ 131072) : dev.endReadChunk.Inv := by
  unfold AtaDevice.endReadChunk
  cases hop : dev.op with
  | none => exact .of_idle ⟨h.buffer, fun op ho => h.operation op ho⟩ dev.clearStatus_drq_drq rfl hbounds
  | some op =>
    dsimp only
    cases hnext : op.advance (dev.length / 512) with
    | none => exact .of_idle ⟨h.buffer, fun _ ho => nomatch ho⟩ dev.clearStatus_drq_drq rfl hbounds
    | some next =>
      obtain ⟨rfl, hleft⟩ := Operation.advance_eq_some hnext
      obtain ⟨hchunk, -, hrem⟩ := h.operation op hop
      refine .of_idle ⟨h.buffer, fun op' ho => ?_⟩ ((AtaDevice.setStatus_busy_drq _).trans dev.clearStatus_drq_drq)
        rfl hbounds
      obtain rfl := Option.some.inj ho
      exact ⟨hchunk, hleft, (Nat.sub_le _ _).trans hrem⟩

theorem AtaDevice.endWriteChunk_inv {dev : AtaDevice} (h : dev.ContentsInv)
    (hbounds : dev.cursor ≤ dev.length ∧ dev.length ≤ 131072) : dev.endWriteChunk.Inv :=
  .of_idle ⟨h.buffer, h.operation⟩ ((AtaDevice.setStatus_busy_drq _).trans dev.clearStatus_drq_drq) rfl hbounds

/-- Moving the cursor within an open transfer keeps it open. -/
theorem AtaDevice.Inv.move {dev : AtaDevice} (h : dev.Inv) {c : Nat} (hc : c < dev.length) {buf : List Host.Cell}
    (hbuf : ∀ c ∈ buf, c.1 < 131072) : ({ dev with buffer := buf, cursor := c } : AtaDevice).Inv :=
  ⟨h.drq, ⟨hc.le, h.bounds.2⟩, fun hx => ⟨hc, (h.transfer hx).2⟩, hbuf, h.operation⟩

theorem AtaDevice.nextCursor_le (dev : AtaDevice) : dev.nextCursor ≤ dev.length := Nat.min_le_right _ _

theorem AtaDevice.readData_inv {d : Drive} {dev : AtaDevice} (h : dev.Inv) : (AtaDevice.readData d dev).dev.Inv := by
  unfold AtaDevice.readData
  split
  · dsimp only
    split
    · exact AtaDevice.endReadChunk_inv ⟨h.buffer, h.operation⟩ ⟨dev.nextCursor_le, h.bounds.2⟩
    · next hopen => exact h.move (Nat.lt_of_not_le hopen) h.buffer
  · exact h

theorem AtaDevice.writeData_inv {dev : AtaDevice} (h : dev.Inv) (v : Half) : (dev.writeData v).dev.Inv := by
  have hbuf := bufferPut_keys h.buffer dev.cursor (if dev.pio8 then [lowByte v] else [lowByte v, highByte v])
  unfold AtaDevice.writeData
  split
  · dsimp only
    split
    · exact AtaDevice.endWriteChunk_inv ⟨hbuf, h.operation⟩ ⟨dev.nextCursor_le, h.bounds.2⟩
    · next hopen => exact h.move (Nat.lt_of_not_le hopen) hbuf
  · exact h

/-! ## Every change of a device keeps the transfer consistent -/

theorem AtaDevice.writeIndex_inv {dev : AtaDevice} {k : Nat} {v : Half} {r : DeviceReply} (hd : dev.Inv)
    (h : dev.writeIndex k v = .next r) : r.dev.Inv := by
  unfold AtaDevice.writeIndex at h
  split_ifs at h
  · cases h; exact hd
  · cases h; exact AtaDevice.writeData_inv hd v
  · unfold AtaDevice.writeCommand at h
    split at h <;> cases h
    exact hd.of_same ⟨AtaDevice.setStatus_busy_drq _, rfl, rfl, rfl, rfl, rfl⟩
  · cases h; exact hd
  · cases h
    refine hd.of_same ⟨?_, rfl, rfl, rfl, rfl, rfl⟩
    have hstatus : (dev.regs.write k (lowByte v)).status = dev.regs.status := by unfold RegFile.write; split <;> rfl
    simp only [AtaDevice.drq, hstatus]

theorem AtaDevice.readIndex_inv {d : Drive} {dev : AtaDevice} (hd : dev.Inv) (k : Nat) :
    (AtaDevice.readIndex d dev k).dev.Inv := by
  unfold AtaDevice.readIndex
  split_ifs
  · exact hd
  · exact hd.of_same ⟨rfl, rfl, rfl, rfl, rfl, rfl⟩
  · exact hd
  · exact AtaDevice.readData_inv hd
  · exact hd

theorem AtaDevice.deviceControl_inv {dev : AtaDevice} (hd : dev.Inv) (b : Byte) : (dev.deviceControl b).Inv := by
  unfold AtaDevice.deviceControl
  dsimp only
  split
  · exact hd.of_same ⟨rfl, rfl, rfl, rfl, rfl, rfl⟩
  · exact hd.of_same ⟨AtaDevice.setStatus_busy_drq _, rfl, rfl, rfl, rfl, rfl⟩

theorem AtaDevice.mergeResult_inv {dev : AtaDevice} (hd : dev.Inv) (res : CommandResult) :
    (dev.mergeResult res).Inv :=
  hd.of_same ⟨by simp only [AtaDevice.drq, AtaDevice.mergeResult, drqBit_mergeStatus], rfl, rfl, rfl, rfl, rfl⟩

theorem AtaDevice.complete_inv {dev : AtaDevice} (hd : dev.Inv) (res : CommandResult) : (dev.complete res).Inv := by
  have hmerged := AtaDevice.mergeResult_inv hd res
  unfold AtaDevice.complete
  split
  · exact hmerged.of_same ⟨rfl, rfl, rfl, rfl, rfl, rfl⟩
  · exact hmerged

theorem CommandChange.keeps_inv {dev dev' : AtaDevice} (h : CommandChange dev dev') (hd : dev.Inv) : dev'.Inv := by
  have hop : ∀ {kind : OpKind} {lba n chunk : Nat}, 0 < chunk → 0 < n → n ≤ 256 →
      ∀ op, some (Operation.mk kind lba n chunk) = some op → 0 < op.chunk ∧ 0 < op.remaining ∧ op.remaining ≤ 256 := by
    intro kind lba n chunk hchunk hpos hle op ho
    obtain rfl := Option.some.inj ho
    exact ⟨hchunk, hpos, hle⟩
  cases h with
  | unchanged => exact hd
  | geometry g => exact hd.of_same ⟨rfl, rfl, rfl, rfl, rfl, rfl⟩
  | multipleBlock n => exact hd.of_same ⟨rfl, rfl, rfl, rfl, rfl, rfl⟩
  | pio8 b => exact hd.of_same ⟨rfl, rfl, rfl, rfl, rfl, rfl⟩
  | read lba n chunk hchunk hpos hle =>
    exact AtaDevice.startPio_inv ⟨bufferPut_keys hd.buffer 0 _, hop hchunk hpos hle⟩ (by decide) (by omega) (by omega)
  | write lba n chunk hchunk hpos hle =>
    exact AtaDevice.startPio_inv ⟨hd.buffer, hop hchunk hpos hle⟩ (by decide) (by omega) (by omega)
  | identify =>
    exact AtaDevice.startPio_inv (k := 1) ⟨bufferPut_keys hd.buffer 0 _, fun _ ho => nomatch ho⟩ (by decide)
      (by omega) (by omega)

theorem powerUp_drqBit : (RegFile.powerUp.status &&& ataDrq != 0) = false := by decide

theorem AtaDevice.workerReset_inv {dev : AtaDevice} (hd : dev.Inv) : dev.workerReset.Inv :=
  .of_idle ⟨hd.buffer, fun _ ho => nomatch ho⟩ powerUp_drqBit rfl ⟨le_rfl, Nat.zero_le _⟩

theorem AtaDevice.continueRead_inv {dev dev' : AtaDevice} {op : Operation} (hd : dev.Inv) (hop : dev.op = some op)
    (h : dev.continueRead op = .next dev') : dev'.Inv := by
  obtain ⟨hchunk, hpos, hle⟩ := hd.operation op hop
  unfold AtaDevice.continueRead at h
  dsimp only at h
  split at h <;> cases h
  refine AtaDevice.complete_inv (AtaDevice.startPio_inv ?_ (by decide) (by omega) (by omega)) _
  exact ⟨bufferPut_keys hd.buffer 0 _, hd.operation⟩

theorem AtaDevice.continueWrite_inv {d : Drive} {dev dev' : AtaDevice} {op : Operation} (hd : dev.Inv)
    (hop : dev.op = some op) (h : AtaDevice.continueWrite d dev op = .next dev') : dev'.Inv := by
  obtain ⟨hchunk, hpos, hle⟩ := hd.operation op hop
  unfold AtaDevice.continueWrite at h
  dsimp only at h
  split at h
  · split at h <;> cases h
    · next hnext =>
      obtain ⟨rfl, hleft⟩ := Operation.advance_eq_some hnext
      refine AtaDevice.complete_inv
        (AtaDevice.startPio_inv ?_ (by decide) (by dsimp only; omega) (by dsimp only; omega)) _
      refine ⟨hd.buffer, fun op' ho => ?_⟩
      obtain rfl := Option.some.inj ho
      exact ⟨hchunk, hleft, (Nat.sub_le _ _).trans hle⟩
    · have hdone : AtaDevice.Inv { dev with op := none } :=
        ⟨hd.drq, hd.bounds, hd.transfer, hd.buffer, fun _ ho => nomatch ho⟩
      refine AtaDevice.mergeResult_inv ?_ _
      exact hdone.of_same ⟨rfl, rfl, rfl, rfl, rfl, rfl⟩
  · cases h

theorem DeviceChange.keeps_inv {i : Instr} {d : Drive} {dev dev' : AtaDevice} (h : DeviceChange i d dev dev')
    (hd : dev.Inv) : dev'.Inv := by
  cases h with
  | write k v r hw => exact AtaDevice.writeIndex_inv hd hw
  | read k => exact AtaDevice.readIndex_inv hd k
  | control b => exact AtaDevice.deviceControl_inv hd b
  | command b rec e _ he =>
    have htaken : AtaDevice.Inv { dev with commandRequested := false } := hd.of_same ⟨rfl, rfl, rfl, rfl, rfl, rfl⟩
    exact AtaDevice.complete_inv ((commandEffect_change he).keeps_inv htaken) _
  | stop _ => exact hd.of_same ⟨rfl, rfl, rfl, rfl, rfl, rfl⟩
  | reset _ => exact AtaDevice.workerReset_inv hd
  | continueRead op _ _ hop hr => exact AtaDevice.continueRead_inv hd hop hr
  | continueWrite op _ _ hop hr => exact AtaDevice.continueWrite_inv hd hop hr

theorem AtaDevice.constructed_inv (disk : DiskParams) : (AtaDevice.constructed disk).Inv :=
  .of_idle ⟨by simp [AtaDevice.constructed], fun _ ho => nomatch ho⟩ powerUp_drqBit rfl ⟨le_rfl, Nat.zero_le _⟩

theorem AtaDevice.rebuilt_inv (old : AtaDevice) : old.rebuilt.Inv :=
  (AtaDevice.constructed_inv old.disk).of_same ⟨rfl, rfl, rfl, rfl, rfl, rfl⟩

/-! ## Events that are no rows, and the devices -/

/-- What a word call, a destruction or a construction does to the devices and the demux. -/
theorem EventEffect.devices {e : Event} {s t : State} (h : EventEffect s e t) :
    ((∀ d, t.device d = s.device d) ∧ t.mux = s.mux) ∨
      (∃ d, e = .teardown d ∧ t.mux = s.mux ∧
        ∀ c, t.device c = if c = d then { s.device d with stopRequested := true } else s.device c) ∨
      ∃ d, e = .constructDevice d ∧ t.mux = { s.mux with out := (t.device s.mux.selected).visible } ∧
        ∀ c, t.device c = if c = d then (s.device d).rebuilt else s.device c := by
  cases h with
  | teardown d => exact .inr (.inl ⟨d, rfl, by simp, fun c => by simp⟩)
  | device d _ =>
    refine .inr (.inr ⟨d, rfl, ?_, fun c => by simp [State.commitDevice]⟩)
    exact (State.commitDevice_spec (.refl s) (.refl s) (.refl s)).1.mux
  | join d => exact .inl ⟨(s.joinWorker_quiet d).channel.device, (s.joinWorker_quiet d).channel.mux⟩
  | outermostPic | chainedPic l q _ _ => exact .inl ⟨fun d => by cases d <;> rfl, rfl⟩
  | _ => exact .inl ⟨fun d => by simp, by simp⟩

theorem State.ChannelInv.of_same {s t : State} (hdev : ∀ d, t.device d = s.device d) (hmux : t.mux = s.mux)
    (hs : s.ChannelInv) : t.ChannelInv :=
  ⟨fun d => hdev d ▸ hs.devices d, by rw [hmux, hdev]; exact hs.out⟩

theorem Effect.keeps_channelInv {i : Instr} {s t : State} (h : Effect i s t) (hs : s.ChannelInv) : t.ChannelInv := by
  constructor
  · intro d
    obtain hsame | hchange := h.devices d
    · rw [hsame]; exact hs.devices d
    · exact hchange.keeps_inv (hs.devices d)
  · obtain hout | ⟨hmux, hdev⟩ := h.out
    · exact hout
    · rw [hmux, hdev]; exact hs.out

theorem EventEffect.keeps_channelInv {e : Event} {s t : State} (h : EventEffect s e t) (hs : s.ChannelInv) :
    t.ChannelInv := by
  obtain ⟨hdev, hmux⟩ | ⟨d, -, hmux, hdev⟩ | ⟨d, -, hmux, hdev⟩ := h.devices
  · exact hs.of_same hdev hmux
  · have hstop : AtaDevice.Inv { s.device d with stopRequested := true } :=
      (hs.devices d).of_same ⟨rfl, rfl, rfl, rfl, rfl, rfl⟩
    constructor
    · intro c
      rw [hdev c]
      split
      · exact hstop
      · exact hs.devices c
    · rw [hmux, hdev, hs.out]
      split
      · next hc => rw [hc]; rfl
      · rfl
  · constructor
    · intro c
      rw [hdev c]
      split
      · exact (s.device d).rebuilt_inv
      · exact hs.devices c
    · rw [hmux]

/-- Settles O58. -/
theorem stepKeepsChannel : Obligations.StepKeepsChannel :=
  step_keeps (fun _ _ h hs => hs.of_same h.devices h.mux) (fun _ _ _ h => h.keeps_channelInv)
    (fun _ _ _ h => h.keeps_channelInv)

/-! ## The canonical form of the memories (log 7) -/

/-- The store of a device is in canonical form and the addresses of its buffer rise. -/
structure AtaDevice.FormInv (dev : AtaDevice) : Prop where
  store : Memory.wf dev.store
  buffer : risingCells dev.buffer

theorem AtaDevice.FormInv.of_same {dev dev' : AtaDevice} (h : dev.FormInv) (hstore : dev'.store = dev.store)
    (hbuffer : dev'.buffer = dev.buffer) : dev'.FormInv :=
  ⟨hstore ▸ h.store, hbuffer ▸ h.buffer⟩

/-- Filling the buffer keeps the form. -/
theorem AtaDevice.FormInv.of_bufferPut {dev dev' : AtaDevice} (h : dev.FormInv) {i : Nat} {bytes : List Byte}
    (hstore : dev'.store = dev.store) (hbuffer : dev'.buffer = bufferPut dev.buffer i bytes) : dev'.FormInv :=
  ⟨hstore ▸ h.store, hbuffer ▸ risingCells_bufferPut h.buffer i bytes⟩

theorem AtaDevice.endReadChunk_buffer (dev : AtaDevice) : dev.endReadChunk.buffer = dev.buffer := by
  unfold AtaDevice.endReadChunk
  split
  · rfl
  · split <;> rfl

theorem AtaDevice.readData_buffer (d : Drive) (dev : AtaDevice) :
    (AtaDevice.readData d dev).dev.buffer = dev.buffer := by
  unfold AtaDevice.readData
  split
  · dsimp only
    split
    · exact AtaDevice.endReadChunk_buffer _
    · rfl
  · rfl

theorem AtaDevice.readIndex_buffer (d : Drive) (dev : AtaDevice) (k : Nat) :
    (AtaDevice.readIndex d dev k).dev.buffer = dev.buffer := by
  unfold AtaDevice.readIndex
  split_ifs
  · rfl
  · rfl
  · rfl
  · exact AtaDevice.readData_buffer d dev
  · rfl

theorem AtaDevice.writeData_form {dev : AtaDevice} (h : dev.FormInv) (v : Half) : (dev.writeData v).dev.FormInv := by
  unfold AtaDevice.writeData
  split
  · dsimp only
    split
    · exact h.of_bufferPut rfl rfl
    · exact h.of_bufferPut rfl rfl
  · exact h

theorem AtaDevice.writeIndex_form {dev : AtaDevice} {k : Nat} {v : Half} {r : DeviceReply} (hd : dev.FormInv)
    (h : dev.writeIndex k v = .next r) : r.dev.FormInv := by
  unfold AtaDevice.writeIndex AtaDevice.writeCommand at h
  split_ifs at h <;> cases h
  · exact hd
  · exact AtaDevice.writeData_form hd v
  · exact hd.of_same rfl rfl
  · exact hd
  · exact hd.of_same rfl rfl

theorem AtaDevice.complete_form {dev : AtaDevice} (hd : dev.FormInv) (res : CommandResult) :
    (dev.complete res).FormInv := by
  unfold AtaDevice.complete
  split
  · exact hd.of_same rfl rfl
  · exact hd.of_same rfl rfl

theorem CommandChange.keeps_form {dev dev' : AtaDevice} (h : CommandChange dev dev') (hd : dev.FormInv) :
    dev'.FormInv := by
  cases h with
  | unchanged => exact hd
  | geometry g => exact hd.of_same rfl rfl
  | multipleBlock n => exact hd.of_same rfl rfl
  | pio8 b => exact hd.of_same rfl rfl
  | read lba n chunk _ _ _ => exact hd.of_bufferPut rfl rfl
  | write lba n chunk _ _ _ => exact hd.of_same rfl rfl
  | identify => exact hd.of_bufferPut rfl rfl

theorem DeviceChange.keeps_form {i : Instr} {d : Drive} {dev dev' : AtaDevice} (h : DeviceChange i d dev dev')
    (hd : dev.FormInv) : dev'.FormInv := by
  cases h with
  | write k v r hw => exact AtaDevice.writeIndex_form hd hw
  | read k => exact hd.of_same (AtaDevice.readIndex_store d dev k) (AtaDevice.readIndex_buffer d dev k)
  | control b =>
    unfold AtaDevice.deviceControl
    dsimp only
    split
    · exact hd.of_same rfl rfl
    · exact hd.of_same rfl rfl
  | command b rec e _ he =>
    have htaken : AtaDevice.FormInv { dev with commandRequested := false } := hd.of_same rfl rfl
    exact AtaDevice.complete_form ((commandEffect_change he).keeps_form htaken) _
  | stop _ => exact hd.of_same rfl rfl
  | reset _ => exact hd.of_same rfl rfl
  | continueRead op _ _ _ hr =>
    unfold AtaDevice.continueRead at hr
    dsimp only at hr
    split at hr <;> cases hr
    refine AtaDevice.complete_form ?_ _
    exact hd.of_bufferPut rfl rfl
  | continueWrite op _ _ _ hr =>
    have hstored : ∀ a bytes, Memory.wf (Memory.writeBytes dev.store a bytes) := fun a bytes =>
      Memory.wf_writeBytes hd.store a bytes
    unfold AtaDevice.continueWrite at hr
    dsimp only at hr
    split at hr
    · split at hr <;> cases hr
      · refine AtaDevice.complete_form ?_ _
        exact ⟨hstored _ _, hd.buffer⟩
      · exact ⟨hstored _ _, hd.buffer⟩
    · cases hr

/-- A word write keeps the canonical form of its block. -/
theorem HostBlock.writeWord_wf {b : HostBlock} (h : Memory.wf b.cells) (w : Nat) (c : WordCall) :
    Memory.wf (b.writeWord w c).cells := by
  rw [HostBlock.writeWord_eq]
  induction List.range w generalizing b with
  | nil => exact h
  | cons j l ih =>
    refine ih ?_
    unfold HostBlock.storeLane
    split
    · exact Memory.wf_write h _ _
    · exact h

theorem State.memoryInv_iff {s : State} :
    s.MemoryInv ↔ (∀ b ∈ s.hostBlocks, Memory.wf b.cells) ∧ ∀ d, (s.device d).FormInv :=
  ⟨fun h => ⟨h.blocks, fun d => ⟨h.stores d, h.buffers d⟩⟩,
    fun h => ⟨h.1, fun d => (h.2 d).store, fun d => (h.2 d).buffer⟩⟩

theorem State.MemoryInv.of_same {s t : State} (hs : s.MemoryInv) (hblocks : t.hostBlocks = s.hostBlocks)
    (hdev : ∀ d, t.device d = s.device d) : t.MemoryInv := by
  obtain ⟨hb, hd⟩ := State.memoryInv_iff.1 hs
  exact State.memoryInv_iff.2 ⟨hblocks ▸ hb, fun d => hdev d ▸ hd d⟩

theorem Effect.keeps_memoryInv {i : Instr} {s t : State} (h : Effect i s t) (hs : s.MemoryInv) : t.MemoryInv := by
  obtain ⟨hb, hd⟩ := State.memoryInv_iff.1 hs
  refine State.memoryInv_iff.2 ⟨h.hostBlocks ▸ hb, fun d => ?_⟩
  obtain hsame | hchange := h.devices d
  · rw [hsame]; exact hd d
  · exact hchange.keeps_form (hd d)

/-- Every event that is no row keeps the form of the host blocks: a word call stores in one, a construction adds an
empty one. -/
theorem EventEffect.blocks_wf {e : Event} {s t : State} (h : EventEffect s e t)
    (hs : ∀ b ∈ s.hostBlocks, Memory.wf b.cells) : ∀ b ∈ t.hostBlocks, Memory.wf b.cells := by
  cases h with
  | wordWrite m w x mask data b hb =>
    intro c hc
    obtain hc | rfl := List.mem_or_eq_of_mem_set hc
    · exact hs c hc
    · exact HostBlock.writeWord_wf (hs b (List.mem_of_getElem? hb)) w _
  | memory size permissions word _ _ =>
    intro c hc
    obtain hc | hc := List.mem_append.1 hc
    · exact hs c hc
    · obtain rfl := List.mem_singleton.1 hc
      exact ⟨List.Pairwise.nil, fun c hc => absurd hc List.not_mem_nil⟩
  | join d => rw [(s.joinWorker_quiet d).bus.hostBlocks]; exact hs
  | device d _ => rw [(State.commitDevice_spec (.refl s) (.refl s) (.refl s)).2.2.2.1.hostBlocks]; exact hs
  | teardown d => simpa using hs
  | wordRead m w x mask b _ => exact hs
  | outermostPic => exact hs
  | chainedPic l q _ _ => exact hs

theorem EventEffect.keeps_memoryInv {e : Event} {s t : State} (h : EventEffect s e t) (hs : s.MemoryInv) :
    t.MemoryInv := by
  obtain ⟨hb, hd⟩ := State.memoryInv_iff.1 hs
  refine State.memoryInv_iff.2 ⟨h.blocks_wf hb, fun c => ?_⟩
  obtain ⟨hdev, -⟩ | ⟨d, -, -, hdev⟩ | ⟨d, -, -, hdev⟩ := h.devices
  · rw [hdev]; exact hd c
  · rw [hdev]
    split
    · exact (hd d).of_same rfl rfl
    · exact hd c
  · rw [hdev]
    split
    · exact ⟨(hd d).store, List.Pairwise.nil⟩
    · exact hd c

/-- Settles O59. -/
theorem stepKeepsMemoryForm : Obligations.StepKeepsMemoryForm :=
  step_keeps (fun _ _ h hs => hs.of_same h.hostBlocks h.devices) (fun _ _ _ h => h.keeps_memoryInv)
    (fun _ _ _ h => h.keeps_memoryInv)

end Sys2Proof.Machine

/-! SUPPORT. The command machine of a PIC (R126, R162 to R177): what each port access and each pseudo-operation stores,
answers and goes on with. -/
namespace Sys2Proof.Machine

/-! ## Completion from the state an operation gives -/

/-- An operation that answers or goes on and then stores a PIC. -/
theorem StoresPic.of_quiet {i : Instr} {s u : State} {p : Nat} {q' : Pic} {rest : List Event} {bytes : List Byte}
    (h : exec i s = .next (u.setPic p q')) (hu : QuietFrame s u) (hc : Continues rest s u)
    (ha : Answered bytes [] s u) :
    StoresPic i s p q' rest bytes :=
  ⟨_, h, State.setPic_spec hu hc ha⟩

/-- An operation that answers or goes on and then commits a PIC. -/
theorem CompletesPic.of_quiet {i : Instr} {s u : State} {p : Nat} {q q' : Pic} {rest : List Event} {bytes : List Byte}
    (hq : s.pics[p]? = some q) (hout : q'.out = q.out) (hsec : q'.secondary = q.secondary)
    (h : exec i s = .next (u.commitPic p q')) (hu : QuietFrame s u) (hc : Continues rest s u)
    (ha : Answered bytes [] s u) : CompletesPic i s p q q' rest bytes :=
  ⟨_, h, State.commitPic_spec hq hout hsec hu hc ha⟩

/-- An operation that stores a PIC leaves it in its place. -/
theorem StoresPic.next_pic {i : Instr} {s : State} {p : Nat} {q q' : Pic} {rest : List Event} {bytes : List Byte}
    (hq : s.pics[p]? = some q) (h : StoresPic i s p q' rest bytes) :
    ∃ t, exec i s = .next t ∧ t.pics[p]? = some q' := by
  obtain ⟨t, hexec, hstored, -, -⟩ := h
  exact ⟨t, hexec, by rw [hstored.pics, List.getElem?_set_self (List.getElem?_eq_some_iff.1 hq).1]⟩

theorem State.inIdle_of_idle {s : State} {p : Nat} {q : Pic} (hq : s.pics[p]? = some q) (hidle : q.fsm = .idle)
    (k : Pic → Result) : s.inIdle p k = k q := by
  rw [State.inIdle, State.withPic_of_some hq, if_pos hidle]

theorem State.inIdle_of_busy {s : State} {p : Nat} {q : Pic} (hq : s.pics[p]? = some q) (hbusy : q.fsm ≠ .idle)
    (k : Pic → Result) : s.inIdle p k = .refused (.picUnspecified .command .write q.fsm) := by
  rw [State.inIdle, State.withPic_of_some hq, if_neg hbusy]

/-! ## ICW1 and the mask (R162, R167, R126) -/

theorem initEvents_eq (p : Nat) (i1 i2 i3 i4 : Byte) :
    initEvents p i1 i2 i3 i4 =
      [.portWrite (.pic p) 1 i2] ++ (if i1 &&& 0x02 = 0 then [.portWrite (.pic p) 1 i3] else []) ++
        (if i1 &&& 0x01 ≠ 0 then [.portWrite (.pic p) 1 i4] else []) := by
  simp only [initEvents, icw1Sngl, icw1Ic4, ne_eq, ite_not, List.nil_append, List.cons_append]

section PortAccess
variable {s : State} {p : Nat} {q : Pic} (hq : s.pics[p]? = some q)
include hq

theorem icw1_completes (b : Byte) : CompletesPic (.icw1 p b) s p q (q.takeIcw1 b) [] [] :=
  .of_exec hq rfl rfl (State.withPic_of_some hq _)

theorem picInit_completes (i1 i2 i3 i4 : Byte) :
    CompletesPic (.picInit p i1 i2 i3 i4) s p q (q.takeIcw1 i1) (initEvents p i1 i2 i3 i4) [] := by
  refine .of_quiet hq rfl rfl ?_ (s.pushFollow_quiet (initEvents p i1 i2 i3 i4)) (s.pushFollow_continues _)
    (s.pushFollow_answered _)
  exact State.withPic_of_some (s := s.pushFollow _) hq _

theorem State.picDataWrite_idle (hidle : q.fsm = .idle) (b : Byte) :
    s.picDataWrite p b = .next (s.commitPic p (q.takeOcw1 b)) := by
  rw [State.picDataWrite, State.withPic_of_some hq, hidle]

end PortAccess

/-- Settles O6, by the three accesses that update the output. -/
theorem icw1AndOcw1UpdateOutput : Obligations.Icw1AndOcw1UpdateOutput := by
  intro s p q hq
  refine ⟨fun b _ => icw1_completes hq b, fun i1 i2 i3 i4 _ => ?_, fun hidle b => ⟨?_, ?_⟩⟩
  · rw [← initEvents_eq]
    exact picInit_completes hq i1 i2 i3 i4
  · exact .of_exec hq rfl rfl (State.picDataWrite_idle hq hidle b)
  · exact .of_exec hq rfl rfl (State.picDataWrite_idle hq hidle b)

/-! ## The handshake (R164) -/

theorem runRows_append {l m : List Instr} {s t : State} (h : runRows l s = .next t) :
    runRows (l ++ m) s = runRows m t := by
  induction l generalizing s with
  | nil => cases h; rfl
  | cons i l ih =>
    rw [List.cons_append, runRows]
    rw [runRows] at h
    cases hi : exec i s with
    | next u => rw [hi] at h; exact ih h
    | fault f => rw [hi] at h; cases h
    | refused r => rw [hi] at h; cases h

theorem runRows_singleton {i : Instr} {s t : State} (h : exec i s = .next t) : runRows [i] s = .next t := by
  simp only [runRows, h]

/-- The ICW3 and ICW4 that ICW1 asks for, each where the command machine waits for it (R163 to R166). -/
theorem icw3_run {s : State} {p : Nat} {q : Pic} (i3 : Byte) (hq : s.pics[p]? = some q)
    (hf : q.fsm = if q.icw1 &&& 0x02 = 0 then .waitingForIcw3
      else if q.icw1 &&& 0x01 ≠ 0 then .waitingForIcw4 else .idle) :
    ∃ t, runRows (if q.icw1 &&& 0x02 = 0 then [.icw3 p i3] else []) s = .next t ∧
      t.pics[p]? = some { q with
        icw3 := if q.icw1 &&& 0x02 = 0 then i3 else q.icw3,
        fsm := if q.icw1 &&& 0x01 ≠ 0 then .waitingForIcw4 else .idle } := by
  by_cases hsngl : q.icw1 &&& 0x02 = 0
  · rw [if_pos hsngl] at hf
    obtain ⟨t, hexec, ht⟩ := ((dataPortWritesAdvanceHandshake s p q i3 hq).2.1 hf).next_pic hq
    exact ⟨t, by rw [if_pos hsngl, runRows_singleton hexec], by rw [ht, if_pos hsngl]⟩
  · rw [if_neg hsngl] at hf
    exact ⟨s, by rw [if_neg hsngl]; rfl, by rw [hq, if_neg hsngl, ← hf]⟩

theorem icw4_run {s : State} {p : Nat} {q : Pic} (i4 : Byte) (hq : s.pics[p]? = some q)
    (hf : q.fsm = if q.icw1 &&& 0x01 ≠ 0 then .waitingForIcw4 else .idle) :
    ∃ t, runRows (if q.icw1 &&& 0x01 ≠ 0 then [.icw4 p i4] else []) s = .next t ∧
      t.pics[p]? = some { q with icw4 := if q.icw1 &&& 0x01 ≠ 0 then i4 else q.icw4, fsm := .idle } := by
  by_cases hic4 : q.icw1 &&& 0x01 ≠ 0
  · rw [if_pos hic4] at hf
    obtain ⟨t, hexec, ht⟩ := ((dataPortWritesAdvanceHandshake s p q i4 hq).2.2 hf).next_pic hq
    exact ⟨t, by rw [if_pos hic4, runRows_singleton hexec], by rw [ht, if_pos hic4]⟩
  · rw [if_neg hic4] at hf
    exact ⟨s, by rw [if_neg hic4]; rfl, by rw [hq, if_neg hic4, ← hf]⟩

/-- Settles O8: each word finds the command machine where the word before left it. -/
theorem handshakeReturnsToIdle : Obligations.HandshakeReturnsToIdle := by
  intro s p q i1 i2 i3 i4 hq _
  obtain ⟨t₁, hexec₁, ht₁⟩ := (icw1_completes hq i1).next_pic hq
  obtain ⟨t₂, hexec₂, ht₂⟩ := ((dataPortWritesAdvanceHandshake t₁ p _ i2 ht₁).1 rfl).next_pic ht₁
  obtain ⟨t₃, hrun₃, ht₃⟩ := icw3_run i3 ht₂ rfl
  obtain ⟨t₄, hrun₄, ht₄⟩ := icw4_run i4 ht₃ rfl
  have hrun₂ : runRows [.icw1 p i1, .icw2 p i2] s = .next t₂ := by simp only [runRows, hexec₁, hexec₂]
  refine ⟨t₄, _, ?_, ht₄, rfl, rfl, rfl, rfl, rfl, rfl, rfl, rfl, rfl, rfl, rfl⟩
  rw [List.append_assoc, runRows_append hrun₂]
  exact (runRows_append hrun₃).trans hrun₄

/-! ## End of interrupt (R168, R169) -/

theorem Pic.endOfInterrupt_eq (q : Pic) : q.endOfInterrupt = { q with isr := q.endOfInterrupt.isr } := by
  unfold Pic.endOfInterrupt; split <;> rfl

/-- The in-service bits that are left are those above a set one. -/
theorem Pic.endOfInterrupt_isr (q : Pic) (k : Fin 8) :
    q.endOfInterrupt.isr.getLsbD k.val = true ↔
      q.isr.getLsbD k.val = true ∧ ∃ j : Fin 8, j < k ∧ q.isr.getLsbD j.val = true := by
  unfold Pic.endOfInterrupt
  split
  · next n hn =>
    obtain ⟨hset, hbelow⟩ := (lowest_eq_some_iff _ _).1 hn
    rw [setLineBit_getLsbD]
    constructor
    · intro hk
      split at hk
      · cases hk
      · next hne =>
        have hnk : ¬k < n := fun hlt => by rw [hbelow k hlt] at hk; cases hk
        exact ⟨hk, n, lt_of_le_of_ne (not_lt.1 hnk) (Ne.symm hne), hset⟩
    · rintro ⟨hk, j, hjk, hj⟩
      have hne : k ≠ n := by
        rintro rfl
        rw [hbelow j hjk] at hj
        cases hj
      rw [if_neg hne, hk]
  · next hn =>
    have hzero : q.isr = 0 := (lowest_eq_none_iff _).1 hn
    simp [hzero]

theorem byte_low3_toFin {b : Byte} {n : Fin 8} (h : (b &&& 0x07).toNat = n.val) : (b.truncate 3).toFin = n := by
  have hmod : (b &&& 0x07).toNat = b.toNat % 8 := by
    rw [BitVec.toNat_and]
    exact Nat.and_two_pow_sub_one_eq_mod b.toNat 3
  apply Fin.ext
  simpa using hmod.symm.trans h

section EndOfInterrupt
variable {s : State} {p : Nat} {q : Pic} (hq : s.pics[p]? = some q) (hidle : q.fsm = .idle)
include hq hidle

theorem State.picEoi_of_idle : s.picEoi p = .next (s.commitPic p q.endOfInterrupt) :=
  State.inIdle_of_idle hq hidle _

theorem State.picEoiAt_of_idle (n : Fin 8) : s.picEoiAt p n = .next (s.commitPic p (q.endOfInterruptAt n)) :=
  State.inIdle_of_idle hq hidle _

end EndOfInterrupt

/-- Settles O9. -/
theorem endOfInterrupt : Obligations.EndOfInterrupt := by
  intro s p q hq hidle
  refine ⟨⟨q.endOfInterrupt.isr, q.endOfInterrupt_isr, ?_, fun b _ => ?_⟩,
    fun n => ⟨setLineBit q.isr n false, fun k => ?_, ?_,
    fun b _ hb => ?_⟩⟩
  · rw [← Pic.endOfInterrupt_eq]
    exact .of_exec hq q.endOfInterrupt_fields.1 q.endOfInterrupt_fields.2 (State.picEoi_of_idle hq hidle)
  · rw [← Pic.endOfInterrupt_eq]
    exact .of_exec hq q.endOfInterrupt_fields.1 q.endOfInterrupt_fields.2 (State.picEoi_of_idle hq hidle)
  · rw [setLineBit_getLsbD]
    split
    · next hk => simp [hk]
    · next hk => simp [hk]
  · exact .of_exec hq rfl rfl (State.picEoiAt_of_idle hq hidle n)
  · refine .of_exec hq rfl rfl ?_
    show s.picEoiAt p (b.truncate 3).toFin = _
    rw [byte_low3_toFin hb]
    exact State.picEoiAt_of_idle hq hidle n

/-! ## OCW2 without an EOI, and OCW3 (R170, R171, R172) -/

/-- Settles O10. -/
theorem ocw2OtherForms : Obligations.Ocw2OtherForms := by
  intro s p q b hq hidle
  exact ⟨fun _ => State.inIdle_of_idle hq hidle _, fun _ => State.inIdle_of_idle hq hidle _,
    fun _ => State.inIdle_of_idle hq hidle _⟩

theorem State.picOcw3_of_idle {s : State} {p : Nat} {q : Pic} {b : Byte} (hq : s.pics[p]? = some q)
    (hidle : q.fsm = .idle) (hsmm : b &&& 0x20 = 0) : s.picOcw3 p b = .next (s.setPic p (q.takeOcw3 b)) := by
  rw [State.picOcw3, State.inIdle_of_idle hq hidle, if_pos hsmm]

theorem Pic.takeOcw3_of_noPoll (q : Pic) {b : Byte} (h : b &&& 0x04 = 0) : q.takeOcw3 b = { q with ocw3 := b } := by
  rw [Pic.takeOcw3, if_pos h]

theorem Pic.takeOcw3_of_poll (q : Pic) {b : Byte} (h : b &&& 0x04 ≠ 0) :
    q.takeOcw3 b = { q with ocw3 := b, fsm := .poll } := by
  rw [Pic.takeOcw3, if_neg h]

/-- Settles O11: the byte class says whether SMM and POLL are set. -/
theorem ocw3IsStored : Obligations.Ocw3IsStored := by
  intro s p q b hq hidle
  refine ⟨fun hb => ?_, fun hb => ?_, fun _ => State.inIdle_of_idle hq hidle _⟩
  · rw [← q.takeOcw3_of_noPoll (byte_field 0x04 hb rfl)]
    exact .of_exec (State.picOcw3_of_idle hq hidle (byte_field 0x20 hb rfl))
  · have hpoll : b &&& 0x04 = 0x04 := byte_field 0x04 hb rfl
    rw [← q.takeOcw3_of_poll (by rw [hpoll]; decide)]
    exact .of_exec (State.picOcw3_of_idle hq hidle (byte_field 0x20 hb rfl))

theorem State.picUnspecified_of_some {s : State} {p : Nat} {q : Pic} (hq : s.pics[p]? = some q) (port : PicPort)
    (dir : Direction) : s.picUnspecified p port dir = .refused (.picUnspecified port dir q.fsm) :=
  State.withPic_of_some hq _

/-- Settles O12: each of the nine rows is the command-port write, which is refused outside `Idle`. -/
theorem unspecifiedAccessesRefused : Obligations.UnspecifiedAccessesRefused := by
  intro s p q b hq
  refine ⟨fun hbusy i hi => ?_, fun hpoll => ⟨?_, ?_⟩⟩
  · simp only [List.mem_cons, List.not_mem_nil, or_false] at hi
    obtain rfl | rfl | rfl | rfl | rfl | rfl | rfl | rfl | rfl := hi
    · exact State.picUnspecified_of_some hq _ _
    all_goals exact State.inIdle_of_busy hq hbusy _
  · rw [← hpoll]; exact State.picUnspecified_of_some hq _ _
  · rw [← hpoll]; exact State.picUnspecified_of_some hq _ _

/-! ## Reads (R173 to R175) -/

theorem Pic.pollByte_of_selects {q : Pic} {n : Fin 8} (h : q.Selects n) :
    q.pollByte = 0x80 ||| BitVec.ofNat 8 n.val := by
  rw [Pic.pollByte, (q.select_eq_some_iff n).2 h]

theorem Pic.pollByte_of_none {q : Pic} (h : q.irr &&& ~~~q.ocw1 &&& ~~~q.isr = 0) : q.pollByte = 0x07 := by
  rw [Pic.pollByte, q.select_eq_none_iff.2 h]

theorem pollRead_stores {s : State} {p : Nat} {q : Pic} (hq : s.pics[p]? = some q) (hpoll : q.fsm = .poll) :
    StoresPic (.pollRead p) s p { q with fsm := .idle } [] [q.pollByte] := by
  refine .of_quiet (u := s.answer [q.pollByte] []) ?_ (s.answer_quiet _ _) (s.answer_continues _ _)
    (s.answer_answered _ _)
  show s.picDataRead p = _
  rw [State.picDataRead, State.withPic_of_some hq, if_pos hpoll]
  rfl

/-- Settles O13: the poll byte goes by what is selected. -/
theorem pollReadAnswersHighestLine : Obligations.PollReadAnswersHighestLine := by
  intro s p q hq
  refine ⟨fun hpoll => ⟨fun n hn => ?_, fun hnone => ?_⟩, fun hidle => ?_⟩
  · rw [← Pic.pollByte_of_selects hn]; exact pollRead_stores hq hpoll
  · rw [← Pic.pollByte_of_none hnone]; exact pollRead_stores hq hpoll
  · rw [← q.takeOcw3_of_poll (b := 0x0C) (by decide)]
    refine .of_quiet (u := s.pushFollow [.portRead (.pic p) 1]) ?_ (s.pushFollow_quiet _) (s.pushFollow_continues _)
      (s.pushFollow_answered _)
    exact State.picOcw3_of_idle (s := s.pushFollow _) hq hidle (by decide)

/-- Settles O14. -/
theorem picReads : Obligations.PicReads := by
  intro s p q hq hpoll
  refine ⟨.of_answer ?_, .of_answer ?_⟩
  · show s.picDataRead p = _
    rw [State.picDataRead, State.withPic_of_some hq, if_neg hpoll]
  · show s.picCommandRead p = _
    rw [State.picCommandRead, State.withPic_of_some hq, if_neg hpoll]
    rfl

/-- Settles O15: an ELCR access is that of its register; a bad offset answers and does nothing else. -/
theorem elcrAndBadPorts : Obligations.ElcrAndBadPorts := by
  refine ⟨fun s p q b hq => ⟨.of_exec ?_, .of_answer ?_⟩, fun s dev off b _ => ⟨.of_answer rfl, .of_answer rfl⟩⟩
  · exact State.withPic_of_some hq _
  · exact State.withPic_of_some hq _

end Sys2Proof.Machine

/-! SUPPORT. Lines and acknowledges of a PIC (R178, R179, R183 to R190), and what no other instruction does to one. -/
namespace Sys2Proof.Machine

/-! ## Line calls (R178, R179) -/

/-- Settles O16. -/
theorem levelLineFollows : Obligations.LevelLineFollows := by
  intro s p q n a hq hl
  exact ⟨_, _, fun k => setLineBit_getLsbD q.irr n k a, fun k => setLineBit_getLsbD q.edge n k a,
    lineLevel_completes hq hl a⟩

/-- A rising edge sets the line's IRR bit, and no bit falls. -/
theorem Pic.edgeLine_irr_getLsbD (q : Pic) (n : Fin 8) (a : Bool) (k : Fin 8) :
    (q.edgeLine n a).irr.getLsbD k.val =
      (q.irr.getLsbD k.val || (decide (k = n) && a && !q.edge.getLsbD n.val)) := by
  unfold Pic.edgeLine
  dsimp only
  split
  · next hrise =>
    rw [setLineBit_getLsbD, Bool.and_assoc, hrise]
    by_cases hk : k = n <;> simp [hk]
  · next hno => rw [Bool.and_assoc, Bool.eq_false_iff.2 hno, Bool.and_false, Bool.or_false]

/-- Settles O17. -/
theorem edgeLineLatches : Obligations.EdgeLineLatches := by
  intro s p q n a hq he
  exact ⟨_, _, q.edgeLine_irr_getLsbD n a, fun k => setLineBit_getLsbD q.edge n k a, lineEdge_completes hq he a⟩

/-! ## Acknowledge (R183 to R186) -/

theorem Pic.acknowledged_irr (q : Pic) (n k : Fin 8) :
    (q.acknowledged n).irr.getLsbD k.val = true ↔
      q.irr.getLsbD k.val = true ∧ (k = n → q.LevelTriggered n) := by
  unfold Pic.acknowledged
  dsimp only
  split
  · next hl => simp [(q.level_iff n).1 hl]
  · next he =>
    have hedge : ¬q.LevelTriggered n := mt (q.level_iff n).2 he
    rw [setLineBit_getLsbD]
    by_cases hk : k = n <;> simp [hk, hedge]

theorem Pic.acknowledged_isr (q : Pic) (n k : Fin 8) :
    (q.acknowledged n).isr.getLsbD k.val = true ↔
      q.isr.getLsbD k.val = true ∨ (k = n ∧ q.icw4 &&& 0x02 = 0) := by
  unfold Pic.acknowledged
  dsimp only
  split
  · next hmanual =>
    rw [setLineBit_getLsbD]
    by_cases hk : k = n
    · rw [if_pos hk]
      exact iff_of_true rfl (.inr ⟨hk, hmanual⟩)
    · rw [if_neg hk, or_iff_left fun h => hk h.1]
  · next hauto => rw [or_iff_left fun h => hauto h.2]

section Acknowledge
variable {s : State} {p : Nat} {q : Pic} {n : Fin 8} (hq : s.pics[p]? = some q)
include hq

theorem inta_completes (hn : q.Selects n) (hsec : q.secondary.get n = none) :
    CompletesPic (.inta p) s p q (q.acknowledged n) [] [q.vector n] := by
  refine .of_quiet (u := s.answer [q.vector n] []) hq rfl rfl ?_ (s.answer_quiet _ _) (s.answer_continues _ _)
    (s.answer_answered _ _)
  show s.acknowledge p = _
  simp only [State.acknowledge, State.withPic_of_some hq, (q.select_eq_some_iff n).2 hn, hsec]

theorem intaCascade_completes (hn : q.Selects n) {sec : Nat} (hsec : q.secondary.get n = some sec) :
    CompletesPic (.intaCascade p) s p q (q.acknowledged n) [.inta sec] [] := by
  refine .of_quiet (u := s.pushFollow [.inta sec]) hq rfl rfl ?_ (s.pushFollow_quiet _) (s.pushFollow_continues _)
    (s.pushFollow_answered _)
  show s.acknowledge p = _
  simp only [State.acknowledge, State.withPic_of_some hq, (q.select_eq_some_iff n).2 hn, hsec]

theorem intaSpurious_completes (hnone : q.irr &&& ~~~q.ocw1 &&& ~~~q.isr = 0) :
    CompletesQuietly (.intaSpurious p) s [] [q.vector 7] [] := by
  refine .of_answer ?_
  show s.acknowledge p = _
  simp only [State.acknowledge, State.withPic_of_some hq, q.select_eq_none_iff.2 hnone]

end Acknowledge

/-- Settles O18, by what the acknowledge finds. -/
theorem acknowledgeTakesLowestLine : Obligations.AcknowledgeTakesLowestLine := by
  intro s p q hq
  refine ⟨fun n hn => ⟨_, _, q.acknowledged_irr n, q.acknowledged_isr n, fun hsec => ?own, fun sec hsec => ?cascade⟩,
    fun hnone => ?nothing⟩
  case own => exact inta_completes hq hn hsec
  case cascade => exact intaCascade_completes hq hn hsec
  case nothing => exact intaSpurious_completes hq hnone

/-! ## Priority (R188) -/

/-- Line 5 is selected where it alone of lines 3 and 5 is requested, in service or not being line 3. -/
theorem Pic.selects_five {q : Pic} (hirr : q.irr = 0x20) (hisr : q.isr = 0x08 ∨ q.isr = 0)
    (hmask : q.ocw1 &&& 0x28 = 0) :
    q.Selects 5 := by
  have key : ∀ m : Byte, m &&& 0x28 = 0 → lowest (0x20 &&& ~~~m &&& ~~~0x08) = some 5 ∧
      lowest (0x20 &&& ~~~m &&& ~~~0x00) = some 5 := by decide
  obtain ⟨hserved, hdone⟩ := key q.ocw1 hmask
  refine (q.select_eq_some_iff 5).1 ?_
  unfold Pic.select Pic.unserviced
  rw [hirr]
  obtain hisr | hisr := hisr
  · rw [hisr]; exact hserved
  · rw [hisr]; exact hdone

theorem Pic.selects_three {q : Pic} (hirr : q.irr = 0x28) (hisr : q.isr = 0) (hmask : q.ocw1 &&& 0x28 = 0) :
    q.Selects 3 := by
  have key : ∀ m : Byte, m &&& 0x28 = 0 → lowest (0x28 &&& ~~~m &&& ~~~0x00) = some 3 := by decide
  refine (q.select_eq_some_iff 3).1 ?_
  unfold Pic.select Pic.unserviced
  rw [hirr, hisr]
  exact key q.ocw1 hmask

/-- A completed acknowledge or EOI: the next state, the PIC in it and the answer. -/
theorem CompletesPic.next_answered {i : Instr} {s : State} {p : Nat} {q q' : Pic} {rest : List Event}
    {bytes : List Byte} (hq : s.pics[p]? = some q) (h : CompletesPic i s p q q' rest bytes) :
    ∃ t, exec i s = .next t ∧ t.pics[p]? = some q'.settled ∧ Answered bytes [] s t := by
  obtain ⟨t, hexec, hupd, hans, -⟩ := h
  exact ⟨t, hexec, by rw [hupd.pics, List.getElem?_set_self (List.getElem?_eq_some_iff.1 hq).1], hans⟩

/-- Settles O19: after line 3 only line 5 is unserviced, whether line 3 is still in service or not. -/
theorem priorityThreeThenFive : Obligations.PriorityThreeThenFive := by
  intro s p q hq hidle hirr hisr hmask hmanual hedge hsec3 hsec5
  have hlevel : ¬q.level 3 = true := mt (q.level_iff 3).1 hedge
  have hisr' : (q.acknowledged 3).isr = 0x08 := by
    unfold Pic.acknowledged
    dsimp only
    rw [if_pos hmanual, hisr]
    decide
  have hirr' : (q.acknowledged 3).irr = 0x20 := by
    unfold Pic.acknowledged
    dsimp only
    rw [if_neg hlevel, hirr]
    decide
  have heoi : (q.acknowledged 3).settled.endOfInterrupt.isr = 0 := by
    have hlowest : lowest (q.acknowledged 3).settled.isr = some 3 := by
      show lowest (q.acknowledged 3).isr = some 3
      rw [hisr']
      decide
    unfold Pic.endOfInterrupt
    rw [hlowest]
    show setLineBit (q.acknowledged 3).isr 3 false = 0
    rw [hisr']
    decide
  obtain ⟨t, htexec, ht, htans⟩ := (inta_completes hq (Pic.selects_three hirr hisr hmask) hsec3).next_answered hq
  obtain ⟨u, huexec, hu, -⟩ := (CompletesPic.of_exec (i := .ocw2Eoi p 0x20) ht (Pic.endOfInterrupt_fields _).1
    (Pic.endOfInterrupt_fields _).2 (State.picEoi_of_idle ht hidle)).next_answered ht
  rw [Pic.endOfInterrupt_eq] at hu
  obtain ⟨v, hvexec, -, hvans⟩ := (inta_completes hu (Pic.selects_five hirr' (.inr heoi) hmask) hsec5).next_answered hu
  obtain ⟨w, hwexec, -, hwans⟩ := (inta_completes ht (Pic.selects_five hirr' (.inl hisr') hmask) hsec5).next_answered ht
  exact ⟨t, u, v, w, _, htexec, htans, ht, hisr', hirr', huexec, hvexec, hvans, hwexec, hwans⟩

/-! ## What other instructions leave (R164, R190) -/

/-- A PIC is as it was, or changed in one of the ways of `PicChange`. -/
theorem Effect.pic_change {i : Instr} {s t : State} {p : Nat} {q q' : Pic} (h : Effect i s t)
    (hq : s.pics[p]? = some q) (hq' : t.pics[p]? = some q') : q' = q ∨ PicChange i p q q' := by
  obtain hsame | ⟨k, r, r', hr, hchange, hset⟩ := h.pics
  · rw [hsame, hq] at hq'
    exact .inl (Option.some.inj hq').symm
  · rw [hset] at hq'
    by_cases hk : k = p
    · subst hk
      rw [List.getElem?_set_self (List.getElem?_eq_some_iff.1 hr).1] at hq'
      obtain rfl := Option.some.inj hq'
      obtain rfl := Option.some.inj (hr.symm.trans hq)
      exact .inr hchange
    · rw [List.getElem?_set_ne hk, hq] at hq'
      exact .inl (Option.some.inj hq').symm

/-- No change of a PIC but an acknowledge clears the request of an edge-triggered line. -/
theorem PicChange.keeps_edge_request {i : Instr} {p : Nat} {q q' : Pic} {n : Fin 8} (h : PicChange i p q q')
    (hedge : ¬q.LevelTriggered n) (hirr : q.irr.getLsbD n.val = true) (hack : i.acknowledgesPic p = false) :
    q'.irr.getLsbD n.val = true := by
  cases h with
  | level m a hl =>
    have hne : n ≠ m := by
      rintro rfl
      exact hedge ((q.level_iff n).1 hl)
    rw [Pic.settled_irr, Pic.levelLine_irr, setLineBit_getLsbD, if_neg hne, hirr]
  | edge m a _ => rw [Pic.settled_irr, Pic.edgeLine_irr_getLsbD, hirr, Bool.true_or]
  | acknowledge m hi => rw [hack] at hi; cases hi
  | eoi => rw [Pic.settled_irr, Pic.endOfInterrupt_eq]; exact hirr
  | _ => exact hirr

/-- Settles O21. -/
theorem edgeRequestOutlastsAllButAcknowledge : Obligations.EdgeRequestOutlastsAllButAcknowledge := by
  intro i s t p q q' n hexec hq hq' hedge hirr hack
  obtain rfl | hchange := (exec_effect hexec).pic_change hq hq'
  · exact hirr
  · exact hchange.keeps_edge_request hedge hirr hack

/-- A change of a PIC leaves its command machine, or the instruction is an access to its ports. -/
theorem PicChange.fsm {i : Instr} {p : Nat} {q q' : Pic} (h : PicChange i p q q') :
    q'.fsm = q.fsm ∨ i.accessesPic p = true := by
  cases h with
  | icw1 b hi | icw2 b hi | icw3 b hi | icw4 b hi => exact .inr hi
  | ocw3 b hi _ => exact .inr hi
  | polled hi => exact .inr hi
  | eoi => exact .inl (by rw [Pic.endOfInterrupt_eq]; rfl)
  | ocw1 b | elcr b => exact .inl rfl
  | eoiAt n => exact .inl rfl
  | level n a _ | edge n a _ => exact .inl rfl
  | acknowledge n _ => exact .inl rfl

/-- Settles O22. -/
theorem commandMachineMovesByPortAccess : Obligations.CommandMachineMovesByPortAccess := by
  intro i s t p q q' hexec hq hq' hfsm
  obtain rfl | hchange := (exec_effect hexec).pic_change hq hq'
  · exact absurd rfl hfsm
  · exact hchange.fsm.resolve_left hfsm

end Sys2Proof.Machine

/-! SUPPORT. The step (R7, R73, R74): which event the next agent performs, and that the step is that event, run by its
row. -/
namespace Sys2Proof.Machine

/-! ## The event of a step -/

section NextEvent
variable {s : State}

/-- The agent goes on with the operation it is in. -/
theorem State.nextEvent_of_follow {e : Event} {es : List Event} (h : (s.thread s.nextAgent).follow = e :: es) :
    s.nextEvent = some (e, (s.beginStep s.nextAgent).setFollow es) := by
  simp only [State.nextEvent, State.takeEvent, State.beginStep_active, State.beginStep_thread, h]

/-- With nothing left of an operation the agent begins a new one. -/
theorem State.nextEvent_of_no_follow (h : (s.thread s.nextAgent).follow = []) :
    s.nextEvent = (s.beginStep s.nextAgent).newOperation := by
  simp only [State.nextEvent, State.takeEvent, State.beginStep_active, State.beginStep_thread, h]

/-- An agent with a program of its own begins the next operation of it. -/
theorem State.nextEvent_of_program {e : Event} {es : List Event}
    (hagent : (∃ k, s.nextAgent = .engine k) ∨ (∃ k, s.nextAgent = .device k) ∨ s.nextAgent = .host)
    (hfollow : (s.thread s.nextAgent).follow = []) (h : (s.thread s.nextAgent).program = e :: es) :
    s.nextEvent =
      some (e, (s.beginStep s.nextAgent).setThread s.nextAgent { follow := [], program := es, reply := {} }) := by
  rw [State.nextEvent_of_no_follow hfollow]
  obtain ⟨k, ha⟩ | ⟨k, ha⟩ | ha := hagent <;>
    · rw [ha] at h ⊢
      simp only [State.newOperation, State.beginStep_active, State.beginStep_thread, h]

theorem State.nextEvent_of_worker {d : Drive} {k : WorkerKind} (hagent : s.nextAgent = .worker d)
    (hfollow : (s.thread s.nextAgent).follow = []) (h : (s.device d).workerKind = some k) :
    s.nextEvent = some (.worker d, s.beginStep (.worker d)) := by
  rw [State.nextEvent_of_no_follow hfollow, hagent]
  simp only [State.newOperation, State.beginStep_active, State.beginStep_device, h, Option.map_some]

theorem State.nextEvent_of_pit {l : LineRef} (hagent : s.nextAgent = .pit)
    (hfollow : (s.thread s.nextAgent).follow = []) (h : s.wiring.pitLine = some l) :
    s.nextEvent = some (.line l.pic l.line true, (s.beginStep .pit).setFollow [.line l.pic l.line false]) := by
  rw [State.nextEvent_of_no_follow hfollow, hagent]
  simp only [State.newOperation, State.beginStep_active, State.beginStep_wiring, h, Option.map_some]

theorem step_of_nextEvent {e : Event} {u : State} (h : s.nextEvent = some (e, u)) : step s = u.runEvent e := by
  unfold step
  rw [show (s.beginStep s.nextAgent).takeEvent = some (e, u) from h]

/-- Taking an event does not change how it is decoded, so an event that is a row is run as that row. -/
theorem step_of_row {e : Event} {u : State} {i : Instr} (h : s.nextEvent = some (e, u))
    (hrow : decode (s.ctx e) e = .row i) : step s = exec i u := by
  have htaken := State.takeEvent_taken h
  rw [← State.ctx_congr htaken.pics htaken.devices htaken.dispatchers htaken.xtMap e] at hrow
  rw [step_of_nextEvent h, State.runEvent_row hrow]

end NextEvent

theorem decodeWorker_row {d : Drive} {k : Option WorkerKind} {i : Instr} (h : decodeWorker d k = .row i) :
    ∃ j, k = some j := by
  cases k with
  | none => cases h
  | some j => exact ⟨j, rfl⟩

/-- A bare byte is read by the match and mask of the opcode table, in every sequencing state. -/
theorem decode_bare (c : Ctx) (b : Byte) : decode c (.bare 8 b.toNat) = .row (decodeBareByte b) := by
  simp [decode, decodeTableWord, b.isLt]

theorem State.withFetchWord_follow (s : State) (n w : Nat) :
    ((s.withFetchWord n w).thread (s.withFetchWord n w).nextAgent).follow =
      .bare n w :: (s.thread (.engine 0)).follow := by
  simp [State.withFetchWord, State.nextAgent, State.thread]

/-- Settles O4: each clause names the event that is taken, and `step_of_row` or `step_of_nextEvent` runs it. -/
theorem stepRunsDecodedInstruction : Obligations.StepRunsDecodedInstruction := by
  refine ⟨fun s e es i hfollow hrow _ => ?_, fun s e es i hagent hfollow hprog hrow _ => ?_, fun s e es hfollow => ?_,
    fun s e es hagent hfollow hprog => ?_, fun s d i hagent hfollow hrow => ?_,
    fun s l i hagent hfollow hwire hrow => ?_, fun s w => ?_⟩
  · exact step_of_row (State.nextEvent_of_follow hfollow) hrow
  · exact step_of_row (State.nextEvent_of_program hagent hfollow hprog) hrow
  · exact step_of_nextEvent (State.nextEvent_of_follow hfollow)
  · exact step_of_nextEvent (State.nextEvent_of_program hagent hfollow hprog)
  · obtain ⟨k, hk⟩ := decodeWorker_row hrow
    exact step_of_row (State.nextEvent_of_worker hagent hfollow hk) hrow
  · exact step_of_row (State.nextEvent_of_pit hagent hfollow hwire) hrow
  · exact step_of_row (State.nextEvent_of_follow (s.withFetchWord_follow 8 w.toNat)) (decode_bare _ w)

/-! ## Other agents -/

/-- An event leaves the step count and every agent but the active one. -/
theorem State.runEvent_agents {s t : State} {e : Event} (h : s.runEvent e = .next t) : SameAgents s t := by
  obtain ⟨i, -, h⟩ | h := State.runEvent_cases h
  · exact (exec_effect h).agents
  · exact h.agents

/-- Settles O5: taking the event and performing it each leave the other agents. -/
theorem stepLeavesOtherAgents : Obligations.StepLeavesOtherAgents := by
  intro s t h
  obtain ⟨-, rfl⟩ | ⟨e, u, hu, h⟩ := step_cases h
  · exact ⟨rfl, fun a _ => rfl⟩
  · have htaken := State.takeEvent_taken hu
    have hagents := State.runEvent_agents h
    refine ⟨hagents.clock.trans htaken.clock, fun a ha => ?_⟩
    rw [hagents.others a (by rwa [htaken.active]), htaken.others a ha]

end Sys2Proof.Machine

/-! SUPPORT. Split accesses (R67, R69, R71, R130 to R133): the words of an access and its bytes in order, and what the
word calls on a host block answer and store. -/
namespace Sys2Proof.Machine

/-! ## The words of an access (R131) -/

theorem sizeOk_pos {n : Nat} (h : sizeOk n = true) : 0 < n ∧ n ≤ 8 := by
  simp only [sizeOk, Bool.or_eq_true, beq_iff_eq] at h
  omega

/-- The words are the multiples of `w` from the one that holds the first byte to the one that holds the last. -/
theorem splitWords_eq {w : Nat} (a sz : Nat) (hw : 0 < w) :
    splitWords a sz w =
      (List.range ((a + sz - 1) / w - a / w + 1)).map fun k => (a / w + k) * w := by
  have hfirst : firstWord a w = a / w * w := by
    unfold firstWord; have := Nat.div_add_mod' a w; omega
  have hlast : lastWord a sz w = (a + sz - 1) / w * w := by
    unfold lastWord; have := Nat.div_add_mod' (a + sz - 1) w; omega
  unfold splitWords
  rw [hfirst, hlast, ← Nat.sub_mul, Nat.mul_div_cancel _ hw]
  refine List.map_congr_left fun k _ => ?_
  rw [Nat.add_mul]

theorem pairwise_splitWords {w : Nat} (a sz : Nat) (hw : 0 < w) : (splitWords a sz w).Pairwise (· < ·) := by
  rw [splitWords_eq a sz hw, List.pairwise_map]
  refine List.pairwise_lt_range.imp fun hlt => ?_
  exact Nat.mul_lt_mul_of_pos_right (Nat.add_lt_add_left hlt _) hw

theorem dvd_of_mem_splitWords {a sz w x : Nat} (hw : 0 < w) (hx : x ∈ splitWords a sz w) : w ∣ x := by
  rw [splitWords_eq a sz hw] at hx
  obtain ⟨k, -, rfl⟩ := List.mem_map.1 hx
  exact Nat.dvd_mul_left _ _

/-- The words of an access are the words that hold one of its bytes. -/
theorem mem_splitWords_iff {a sz w x : Nat} (hw : 0 < w) (hsz : 0 < sz) :
    x ∈ splitWords a sz w ↔ w ∣ x ∧ ∃ k, k < sz ∧ x ≤ a + k ∧ a + k < x + w := by
  constructor
  · intro hx
    refine ⟨dvd_of_mem_splitWords hw hx, ?_⟩
    rw [splitWords_eq a sz hw] at hx
    obtain ⟨k, hk, rfl⟩ := List.mem_map.1 hx
    have hk := List.mem_range.1 hk
    have hmono : a / w ≤ (a + sz - 1) / w := Nat.div_le_div_right (by omega)
    have hend : (a / w + k) * w ≤ a + sz - 1 :=
      (Nat.mul_le_mul_right w (by omega)).trans (Nat.div_mul_le_self (a + sz - 1) w)
    have hstart : a < a / w * w + w := by have := Nat.div_add_mod' a w; have := Nat.mod_lt a hw; omega
    rw [Nat.add_mul] at hend ⊢
    by_cases hle : a / w * w + k * w ≤ a
    · exact ⟨0, hsz, by omega, by omega⟩
    · exact ⟨a / w * w + k * w - a, by omega, by omega, by omega⟩
  · rintro ⟨⟨c, rfl⟩, k, hk, hlo, hhi⟩
    have hc : (a + k) / w = c := by
      rw [Nat.div_eq_iff hw]
      have := Nat.mul_comm w c
      omega
    have := wordOfByte_mem_splitWords a hw hk
    rwa [hc, Nat.mul_comm] at this

/-! ## The bytes of an access, in order -/

theorem pairwise_touchedLanes (a sz w x : Nat) : (touchedLanes a sz w x).Pairwise (· < ·) :=
  List.pairwise_lt_range.filter _

/-- The words touch the bytes of the access in ascending order, each once. -/
theorem splitOffsets_eq_range {w : Nat} (a sz : Nat) (hw : 0 < w) : splitOffsets a sz w = List.range sz := by
  have hsorted : (splitOffsets a sz w).Pairwise (· < ·) := by
    refine List.pairwise_flatMap.2 ⟨fun x _ => ?_, ?_⟩
    · rw [List.pairwise_map]
      refine (pairwise_touchedLanes a sz w x).imp_of_mem fun hi hj hlt => ?_
      have := mem_touchedLanes.1 hi
      omega
    · refine (pairwise_splitWords a sz hw).imp_of_mem fun {x y} hx hy hlt => ?_
      obtain ⟨c, rfl⟩ := dvd_of_mem_splitWords hw hx
      obtain ⟨e, rfl⟩ := dvd_of_mem_splitWords hw hy
      have hce : c + 1 ≤ e := Nat.lt_of_mul_lt_mul_left hlt
      have hnext : w * c + w ≤ w * e := by rw [← Nat.mul_succ]; exact Nat.mul_le_mul_left w hce
      simp only [List.forall_mem_map]
      intro i hi j hj
      have := mem_touchedLanes.1 hi
      have := mem_touchedLanes.1 hj
      omega
  exact hsorted.eq_of_mem_iff List.pairwise_lt_range fun i => (mem_splitOffsets hw).trans List.mem_range.symm

/-- What is made of each touched lane, word by word, is what is made of each byte of the access, in order. -/
theorem flatMap_touchedLanes {α : Type} {w : Nat} (a sz : Nat) (hw : 0 < w) (f : Nat → Nat → α) (g : Nat → α)
    (h : ∀ x ∈ splitWords a sz w, ∀ j ∈ touchedLanes a sz w x, f x j = g (x + j - a)) :
    ((splitWords a sz w).flatMap fun x => (touchedLanes a sz w x).map (f x)) = (List.range sz).map g := by
  rw [← splitOffsets_eq_range a sz hw, splitOffsets, List.map_flatMap]
  refine List.flatMap_congr fun x hx => ?_
  rw [List.map_map]
  exact List.map_congr_left fun j hj => h x hx j hj

/-! ## Port devices (R69, R132, R133) -/

/-- An instruction that only goes on completes quietly. -/
theorem CompletesQuietly.of_pushFollow {i : Instr} {s : State} {es : List Event}
    (h : exec i s = .next (s.pushFollow es)) : CompletesQuietly i s es [] [] :=
  ⟨_, h, s.pushFollow_continues _, s.pushFollow_answered _, s.pushFollow_quiet _⟩

theorem portWriteEvents_eq (dev : PortDevice) (a sz : Nat) (v : Quad) :
    portWriteEvents dev a sz 1 v =
      (List.range sz).map fun k => .portWrite dev (a + k) ((v >>> (8 * k)).truncate 8) := by
  simp only [portWriteEvents, splitWriteCalls, List.flatMap_map]
  refine flatMap_touchedLanes a sz Nat.one_pos _ _ fun x _ j hj => ?_
  have hlane := mem_touchedLanes.1 hj
  have hoff : a + (x + j - a) = x + j := by omega
  rw [quadByte_laneData v (by omega) hj, hoff]
  rfl

theorem portReadEvents_eq (dev : PortDevice) (a sz : Nat) :
    portReadEvents dev a sz 1 = (List.range sz).map fun k => .portRead dev (a + k) := by
  simp only [portReadEvents, splitReadCalls, List.flatMap_map]
  refine flatMap_touchedLanes a sz Nat.one_pos _ _ fun x _ j hj => ?_
  have hlane := mem_touchedLanes.1 hj
  have hoff : a + (x + j - a) = x + j := by omega
  rw [hoff]

/-- Settles O23. -/
theorem portAccessesAreSplit : Obligations.PortAccessesAreSplit := by
  intro s dev a sz _
  refine ⟨fun v _ => ?_, ?_⟩
  · rw [← portWriteEvents_eq]
    exact .of_pushFollow rfl
  · rw [← portReadEvents_eq]
    exact .of_pushFollow rfl

/-! ## Word reads of a host block (R71, R133) -/

theorem State.withBlock_of_some {s : State} {m : Nat} {b : HostBlock} (hb : s.hostBlocks[m]? = some b)
    (k : HostBlock → Result) : s.withBlock m k = k b := by
  simp only [State.withBlock, hb]

theorem maskLane_laneMask {a sz w x j : Nat} (hj8 : j < 8) (hj : j < w) :
    maskLane (laneMask a sz w x) j = laneTouched a sz x j := by
  have hbyte : quadByte (laneMask a sz w x) j = if j ∈ touchedLanes a sz w x then 0xFF else 0 :=
    quadByte_orLanes _ _ hj8
  have hbit := getLsbD_quadByte (laneMask a sz w x) j 0
  rw [hbyte] at hbit
  have hmem : j ∈ touchedLanes a sz w x ↔ laneTouched a sz x j = true := by
    simp [touchedLanes, hj]
  simp only [maskLane]
  cases ht : laneTouched a sz x j with
  | true => rw [if_pos (hmem.2 ht)] at hbit; simpa using hbit.symm
  | false => rw [if_neg (by simp [hmem, ht])] at hbit; simpa using hbit.symm

/-- The lanes that the mask of a word enables are the touched ones. -/
theorem filter_maskLane {w : Nat} (a sz x : Nat) (hw8 : w ≤ 8) :
    (List.range w).filter (maskLane (laneMask a sz w x)) = touchedLanes a sz w x := by
  refine List.filter_congr fun j hj => ?_
  have hj := List.mem_range.1 hj
  exact maskLane_laneMask (hj.trans_le hw8) hj

theorem HostBlock.quadByte_readWord (b : HostBlock) {w j : Nat} (x : Nat) (hj8 : j < 8) (hj : j < w) :
    quadByte (b.readWord w x) j = Memory.read b.cells ((x + j) % b.size) :=
  (quadByte_orLanes _ _ hj8).trans (if_pos (List.mem_range.2 hj))

/-- The bytes that the word reads of an access answer. -/
theorem HostBlock.readLanes_flatMap (b : HostBlock) {w : Nat} (a sz : Nat) (hw : 0 < w) (hw8 : w ≤ 8) :
    ((splitWords a sz w).flatMap fun x => b.readLanes w x (laneMask a sz w x)) =
      (List.range sz).map fun k => Memory.read b.cells ((a + k) % b.size) := by
  unfold HostBlock.readLanes
  simp only [filter_maskLane a sz _ hw8]
  refine flatMap_touchedLanes a sz hw _ _ fun x _ j hj => ?_
  have hlane := mem_touchedLanes.1 hj
  have hoff : a + (x + j - a) = x + j := by omega
  rw [b.quadByte_readWord x (by omega) hlane.1, hoff]

/-- Some word reads of a block answer their bytes, one after the other, and change nothing. -/
theorem runEvents_wordRead {s : State} {m : Nat} {b : HostBlock} (hb : s.hostBlocks[m]? = some b) (w : Nat)
    (mask : Nat → Quad) (xs : List Nat) :
    ∃ t, runEvents (xs.map fun x => .wordRead m w x (mask x)) s = .next t ∧
      Answered (xs.flatMap fun x => b.readLanes w x (mask x)) [] s t ∧ Continues [] s t ∧ QuietFrame s t := by
  induction xs generalizing s with
  | nil => exact ⟨s, rfl, .refl s, .refl s, .refl s⟩
  | cons x xs ih =>
    have hquiet := s.answer_quiet (b.readLanes w x (mask x)) []
    have hread : s.runEvent (.wordRead m w x (mask x)) = .next (s.answer (b.readLanes w x (mask x)) []) :=
      State.withBlock_of_some hb _
    obtain ⟨t, hrun, hans, hcont, hframe⟩ := ih (s := s.answer (b.readLanes w x (mask x)) []) hb
    refine ⟨t, ?_, ?_, ?_, hquiet.trans hframe⟩
    · rw [List.map_cons, runEvents, hread]
      exact hrun
    · exact (s.answer_answered _ _).trans (by simp) hans
    · exact (s.answer_continues _ _).trans (by simp) hcont

/-! ## Word writes of a host block (R71, R132) -/

/-- Byte `k` of a datum at host byte `(a + k) mod size`. -/
def HostBlock.storeByteAt (a : Nat) (v : Quad) (b : HostBlock) (k : Nat) : HostBlock :=
  { b with cells := Memory.write b.cells ((a + k) % b.size) (quadByte v k) }

/-- A block after the word calls of a write. -/
def HostBlock.writeWords (b : HostBlock) (a sz w : Nat) (v : Quad) (xs : List Nat) : HostBlock :=
  xs.foldl (fun b x => b.writeWord w { address := x, mask := laneMask a sz w x, data := laneData a sz w v x }) b

/-- The word calls of a write store the bytes of the datum in ascending order. -/
theorem HostBlock.writeWords_eq (b : HostBlock) {w : Nat} (a sz : Nat) (v : Quad) (hw : 0 < w) (hw8 : w ≤ 8) :
    b.writeWords a sz w v (splitWords a sz w) = (List.range sz).foldl (HostBlock.storeByteAt a v) b := by
  have hword : ∀ (c : HostBlock) (x : Nat),
      c.writeWord w { address := x, mask := laneMask a sz w x, data := laneData a sz w v x } =
        ((touchedLanes a sz w x).map fun j => x + j - a).foldl (HostBlock.storeByteAt a v) c := by
    intro c x
    rw [List.foldl_map, HostBlock.writeWord_eq, ← filter_maskLane a sz x hw8, List.foldl_filter]
    refine List.foldl_ext _ _ _ fun acc j hj => ?_
    have hjw := List.mem_range.1 hj
    unfold HostBlock.storeLane
    split
    · next hmask =>
      have htouched : j ∈ touchedLanes a sz w x := by
        rw [← filter_maskLane a sz x hw8]
        exact List.mem_filter.2 ⟨hj, hmask⟩
      have hlane := mem_touchedLanes.1 htouched
      have hoff : a + (x + j - a) = x + j := by omega
      simp only [HostBlock.storeByteAt, hoff, quadByte_laneData v (by omega : j < 8) htouched]
    · rfl
  unfold HostBlock.writeWords
  simp only [hword]
  rw [← List.foldl_flatMap, ← splitOffsets_eq_range a sz hw]
  rfl

theorem HostBlock.foldl_storeByteAt_size (a : Nat) (v : Quad) (b : HostBlock) (l : List Nat) :
    (l.foldl (HostBlock.storeByteAt a v) b).size = b.size := by
  induction l generalizing b with
  | nil => rfl
  | cons k l ih => exact ih _

/-- A byte that the datum does not reach is as before. -/
theorem HostBlock.read_storeBytes_of_ne {a : Nat} {v : Quad} {b : HostBlock} {n x : Nat}
    (h : ∀ k, k < n → x ≠ (a + k) % b.size) :
    Memory.read ((List.range n).foldl (HostBlock.storeByteAt a v) b).cells x = Memory.read b.cells x := by
  induction n with
  | zero => rfl
  | succ n ih =>
    rw [List.range_succ, List.foldl_append, List.foldl_cons, List.foldl_nil]
    simp only [HostBlock.storeByteAt, Memory.read_write, HostBlock.foldl_storeByteAt_size]
    rw [if_neg (h n (Nat.lt_succ_self n)), ih fun k hk => h k (Nat.lt_succ_of_lt hk)]

theorem mod_ne_of_lt {a k n size : Nat} (hk : k < n) (hn : n < size) : (a + k) % size ≠ (a + n) % size := by
  intro h
  have hdvd : size ∣ n - k := by
    have := (Nat.modEq_iff_dvd' (Nat.add_le_add_left hk.le a)).1 h
    rwa [Nat.add_sub_add_left] at this
  have := Nat.le_of_dvd (by omega) hdvd
  omega

/-- Where the block has room for the datum, its bytes are there. -/
theorem HostBlock.read_storeBytes {a : Nat} {v : Quad} {b : HostBlock} {n k : Nat} (hn : n ≤ b.size) (hk : k < n) :
    Memory.read ((List.range n).foldl (HostBlock.storeByteAt a v) b).cells ((a + k) % b.size) = quadByte v k := by
  induction n with
  | zero => omega
  | succ n ih =>
    rw [List.range_succ, List.foldl_append, List.foldl_cons, List.foldl_nil]
    simp only [HostBlock.storeByteAt, Memory.read_write, HostBlock.foldl_storeByteAt_size]
    by_cases hkn : k = n
    · rw [if_pos (by rw [hkn]), hkn]
    · have hlt : k < n := by omega
      rw [if_neg (mod_ne_of_lt hlt hn), ih (by omega) hlt]

theorem HostBlock.writeWords_shape (b : HostBlock) (a sz w : Nat) (v : Quad) (xs : List Nat) :
    (b.writeWords a sz w v xs).size = b.size ∧ (b.writeWords a sz w v xs).permissions = b.permissions ∧
      (b.writeWords a sz w v xs).word = b.word := by
  induction xs generalizing b with
  | nil => exact ⟨rfl, rfl, rfl⟩
  | cons x xs ih =>
    obtain ⟨hs, hp, hw⟩ := ih
      (b.writeWord w { address := x, mask := laneMask a sz w x, data := laneData a sz w v x })
    obtain ⟨hs', hp', hw'⟩ := b.writeWord_shape w
      { address := x, mask := laneMask a sz w x, data := laneData a sz w v x }
    exact ⟨hs.trans hs', hp.trans hp', hw.trans hw'⟩

/-- Some word writes of a block store in that block, one after the other, and do nothing else. -/
theorem runEvents_wordWrite {s : State} {m : Nat} {b : HostBlock} (hb : s.hostBlocks[m]? = some b) (a sz w : Nat)
    (v : Quad) (xs : List Nat) :
    runEvents (xs.map fun x => .wordWrite m w x (laneMask a sz w x) (laneData a sz w v x)) s =
      .next (s.setHostBlocks (s.hostBlocks.set m (b.writeWords a sz w v xs))) := by
  induction xs generalizing s b with
  | nil =>
    obtain ⟨hlt, hget⟩ := List.getElem?_eq_some_iff.1 hb
    have hself : s.hostBlocks.set m b = s.hostBlocks := by rw [← hget, List.set_getElem_self]
    simp only [List.map_nil, runEvents, HostBlock.writeWords, List.foldl_nil, hself]
    rfl
  | cons x xs ih =>
    have hwrite : s.runEvent (.wordWrite m w x (laneMask a sz w x) (laneData a sz w v x)) = .next (s.setHostBlocks
        (s.hostBlocks.set m
          (b.writeWord w { address := x, mask := laneMask a sz w x, data := laneData a sz w v x }))) :=
      State.withBlock_of_some hb _
    rw [List.map_cons, runEvents, hwrite]
    refine (ih (List.getElem?_set_self (List.getElem?_eq_some_iff.1 hb).1)).trans ?_
    rw [State.setHostBlocks_hostBlocks, List.set_set]
    rfl

/-! ## Accesses of a host block (R67, R71) -/

theorem State.hostByte_of_some {s : State} {m : Nat} {b : HostBlock} (hb : s.hostBlocks[m]? = some b) (x : Nat) :
    s.hostByte m x = Memory.read b.cells x := by
  simp only [State.hostByte, hb]

/-- Replacing a block by one of the same shape keeps the shape of every block. -/
theorem map_shape_set {bs : List HostBlock} {m : Nat} {b c : HostBlock} (hb : bs[m]? = some b) (hsize : c.size = b.size)
    (hperm : c.permissions = b.permissions) (hword : c.word = b.word) :
    ((bs.set m c).map fun c => (c.size, c.permissions, c.word)) = bs.map fun c => (c.size, c.permissions, c.word) := by
  obtain ⟨hlt, rfl⟩ := List.getElem?_eq_some_iff.1 hb
  have hlt' : m < (bs.map fun c => (c.size, c.permissions, c.word)).length := by simpa using hlt
  have hsame : (c.size, c.permissions, c.word) = (bs.map fun c => (c.size, c.permissions, c.word))[m] := by
    rw [List.getElem_map, hsize, hperm, hword]
  rw [List.map_set, hsame, List.set_getElem_self]

theorem runEvents_splitRead {s : State} {m : Nat} {b : HostBlock}
    (hb : s.hostBlocks[m]? = some b) {w : Nat} (a sz : Nat)
    (hw : 0 < w) (hw8 : w ≤ 8) :
    ∃ t, runEvents ((splitWords a sz w).map fun x => .wordRead m w x (laneMask a sz w x)) s = .next t ∧
      Answered ((List.range sz).map fun k => s.hostByte m ((a + k) % b.size)) [] s t ∧ Continues [] s t ∧
      QuietFrame s t := by
  simp only [State.hostByte_of_some hb, ← b.readLanes_flatMap a sz hw hw8]
  exact runEvents_wordRead hb w (laneMask a sz w) (splitWords a sz w)

/-- Settles O24: the word calls go to the words that hold a byte of the access, and together they read or store its
bytes in ascending order. -/
theorem hostMemoryAccess : Obligations.HostMemoryAccess := by
  intro s m a sz w b hb hsz hw
  obtain ⟨hsz0, -⟩ := sizeOk_pos hsz
  obtain ⟨hw0, hw8⟩ := sizeOk_pos hw
  refine ⟨splitWords a sz w, pairwise_splitWords a sz hw0, fun x => mem_splitWords_iff hw0 hsz0, .of_pushFollow ?_,
    runEvents_splitRead hb a sz hw0 hw8, fun v _ => ⟨.of_pushFollow ?_, _, runEvents_wordWrite hb a sz w v _, ?_⟩⟩
  · refine (State.withBlock_of_some hb _).trans ?_
    simp only [wordReadEvents, splitReadCalls, List.map_map, Function.comp_def]
  · refine (State.withBlock_of_some hb _).trans ?_
    simp only [wordWriteEvents, splitWriteCalls, List.map_map, Function.comp_def]
  · obtain ⟨hsize, hperm, hword⟩ := b.writeWords_shape a sz w v (splitWords a sz w)
    have hstored := State.hostByte_of_some (s := s.setHostBlocks (s.hostBlocks.set m _))
      (List.getElem?_set_self (a := b.writeWords a sz w v (splitWords a sz w)) (List.getElem?_eq_some_iff.1 hb).1)
    rw [b.writeWords_eq a sz v hw0 hw8] at hstored hsize hperm hword ⊢
    refine ⟨fun hfits k hk => ?_, fun x hx => ?_, fun m' x hm => ?_, fun d x => ?_,
      map_shape_set hb hsize hperm hword, ⟨rfl, rfl⟩, ⟨rfl, rfl, rfl, rfl⟩,
      ⟨rfl, rfl, rfl, rfl, rfl, fun _ _ => rfl, rfl⟩,
      rfl, ⟨(List.append_nil _).symm, (List.append_nil _).symm, rfl, rfl⟩, rfl, rfl, rfl⟩
    · rw [hstored, HostBlock.read_storeBytes hfits hk]
      rfl
    · rw [hstored, HostBlock.read_storeBytes_of_ne hx, State.hostByte_of_some hb]
    · simp only [State.hostByte, State.setHostBlocks_hostBlocks, List.getElem?_set_ne (Ne.symm hm)]
    · simp only [State.storeByte, State.setHostBlocks_device]

end Sys2Proof.Machine

/-! SUPPORT. The operations of the dispatchers (R134 to R141): registration, handles, unregistration, resolution and the
mappings of an engine, each with what it answers and leaves. -/
namespace Sys2Proof.Machine

/-! ## Registration (R134) -/

section Register
variable {s : State} {sp : Space} {base limit off : Nat} {h : Handler}

theorem ranges_overlap_iff : (s.dispatcher sp).ranges.any (rangesOverlap ⟨base, limit, off, h⟩) = true ↔
    ∃ q ∈ (s.dispatcher sp).ranges, q.beginAddress < limit ∧ base < q.endAddress := by
  simp only [List.any_eq_true, rangesOverlap, decide_eq_true_eq]
  exact exists_congr fun q => and_congr_right fun _ => and_comm

theorem execReg_empty (hle : limit ≤ base) : execReg sp base limit h off s = .refused .emptyRange :=
  if_pos hle

theorem execReg_overlap (hlt : base < limit)
    (hov : ∃ q ∈ (s.dispatcher sp).ranges, q.beginAddress < limit ∧ base < q.endAddress) :
    execReg sp base limit h off s = .fault .configurationConflict :=
  (if_neg (Nat.not_le_of_lt hlt)).trans (if_pos (ranges_overlap_iff.2 hov))

/-- With the two checks passed registration goes by the handler. -/
theorem execReg_checked (hlt : base < limit)
    (hov : ∀ q ∈ (s.dispatcher sp).ranges, ¬(q.beginAddress < limit ∧ base < q.endAddress)) :
    execReg sp base limit h off s =
      match s.absentHandler h with
      | some what => .refused (.absentDevice what)
      | none =>
        .next (((s.setDispatcher sp
          (Dispatcher.register s.hostBlocks (s.dispatcher sp) ⟨base, limit, off, h⟩)).setRegistrations
          (s.registrations ++ [{ space := sp, range := ⟨base, limit, off, h⟩, attached := true }])).answerHandle
            s.registrations.length) := by
  have hno : ¬(s.dispatcher sp).ranges.any (rangesOverlap ⟨base, limit, off, h⟩) = true := by
    rw [ranges_overlap_iff]
    rintro ⟨q, hq, hqo⟩
    exact hov q hq hqo
  exact (if_neg (Nat.not_le_of_lt hlt)).trans (if_neg hno)

end Register

/-- Settles O26, in the order of the checks of R134. -/
theorem registerAddressRange : Obligations.RegisterAddressRange := by
  intro s sp base limit off h
  refine ⟨fun hle => execReg_empty hle, fun hlt hov => execReg_overlap hlt hov, fun hlt hov what hwhat => ?_,
    fun hlt hov hpresent => ?_⟩
  · refine (execReg_checked hlt hov).trans ?_
    rw [hwhat]
  · have hexec := execReg_checked (h := h) (off := off) hlt hov
    rw [hpresent] at hexec
    refine ⟨_, hexec, fun r => ?_, ?_, fun r => ?_, ?_, ?_, ?_, ?_, ?_⟩
    · simp [Dispatcher.register_ranges, mem_insertRange]
    · simp [Dispatcher.register_engine]
    · simp [Dispatcher.mem_register_mapped]
    · simp [Dispatcher.register_engineMap]
    · simp
    · simp
    · simp [Continues]
    · exact (State.setDispatcher_frame s sp _ _ (Dispatcher.register_addrBits _ _ _)).quiet
        (State.answerHandle_quiet _ _)

/-! ## Unregistration and handles (R135, R136) -/

theorem State.unregister_frame (s : State) (sp : Space) (r : AddressRange) :
    DispatcherFrame sp s (s.unregister sp r) := by
  have h := State.setDispatcher_frame s sp (Dispatcher.unregister s.hostBlocks (s.dispatcher sp) r) s.registrations
    (Dispatcher.unregister_addrBits _ _ _)
  rwa [State.setDispatcher_registrations_self] at h

@[simp] theorem State.unregister_dispatcher (s : State) (sp : Space) (r : AddressRange) :
    (s.unregister sp r).dispatcher sp = Dispatcher.unregister s.hostBlocks (s.dispatcher sp) r := by
  simp [State.unregister]

@[simp] theorem State.unregister_registrations (s : State) (sp : Space) (r : AddressRange) :
    (s.unregister sp r).registrations = s.registrations := by
  simp [State.unregister]

/-- Replacing the handles leaves everything but them. -/
theorem DispatcherFrame.setRegistrations {sp : Space} {s t : State} (h : DispatcherFrame sp s t)
    (gs : List Registration) : DispatcherFrame sp s (t.setRegistrations gs) :=
  ⟨⟨h.pics.pics, h.pics.sink⟩, by simpa using h.addrBits, fun sq hs => by simpa using h.other sq hs, h.hostBlocks,
    ⟨h.channel.master, h.channel.slave, h.channel.mux, h.channel.latch⟩,
    ⟨h.agents.xtMap, h.agents.wiring, h.agents.active, h.agents.schedule, h.agents.clock, h.agents.others,
      h.agents.program⟩, ⟨h.memory.host, fun d a => by simpa [State.storeByte] using h.memory.store d a⟩⟩

theorem DispatcherFrame.refl (sp : Space) (s : State) : DispatcherFrame sp s s :=
  ⟨.refl s, rfl, fun _ _ => rfl, rfl, .refl s, .refl s, .refl s⟩

section Handle
variable {s : State} {k : Nat} {g : Registration} (hg : s.registrations[k]? = some g)
include hg

theorem execRelease_release :
    execRelease k .release s = .next (s.setRegistrations (s.registrations.set k { g with attached := false })) := by
  simp only [execRelease, hg]

theorem execRelease_destroy_attached (ha : g.attached = true) : execRelease k .destroy s =
    .next ((s.unregister g.space g.range).setRegistrations (s.registrations.set k { g with attached := false })) := by
  simp only [execRelease, hg, ha, if_true]

theorem execRelease_destroy_detached (ha : g.attached = false) : execRelease k .destroy s = .next s := by
  simp only [execRelease, hg, ha, Bool.false_eq_true, if_false]

theorem execRelease_move : execRelease k .move s =
    .next ((s.setRegistrations (s.registrations.set k { g with attached := false } ++ [g])).answerHandle
      s.registrations.length) := by
  simp only [execRelease, hg]

end Handle

/-- Settles O27, by the operation. -/
theorem registrationHandles : Obligations.RegistrationHandles := by
  intro s k g hg
  refine ⟨⟨_, execRelease_release hg, by simp, fun sp => by simp, (DispatcherFrame.refl g.space s).setRegistrations _⟩,
    fun ha => ⟨_, _, execRelease_destroy_attached hg ha, rfl, rfl, fun r => ?_,
      (s.unregister_frame g.space g.range).setRegistrations _⟩,
    fun ha => execRelease_destroy_detached hg ha,
    ⟨_, execRelease_move hg, by simp, by simp, fun sp => by simp,
      ((DispatcherFrame.refl g.space s).setRegistrations _).quiet (State.answerHandle_quiet _ _)⟩⟩
  simp [Dispatcher.mem_unregister_ranges]

/-! ## Resolution (R137) -/

theorem rangeContains_iff {r : AddressRange} {a : Nat} :
    rangeContains r a = true ↔ r.beginAddress ≤ a ∧ a < r.endAddress := by
  simp only [rangeContains, decide_eq_true_eq]

/-- What is found is a range of the table that contains the address. -/
theorem findRange_mem {l : List AddressRange} {a : Nat} {r : AddressRange} (h : findRange l a = some r) :
    r ∈ l ∧ rangeContains r a = true := by
  induction l generalizing r with
  | nil => cases h
  | cons q l ih =>
    unfold findRange at h
    cases hf : findRange l a with
    | none =>
      simp only [hf] at h
      split at h
      · next hq => cases h; exact ⟨List.mem_cons_self, hq⟩
      · cases h
    | some x =>
      simp only [hf] at h
      split at h
      · next hq =>
        cases h
        exact ⟨List.mem_cons_self, (Bool.and_eq_true_iff.1 hq).1⟩
      · cases h
        exact ⟨List.mem_cons_of_mem q (ih hf).1, (ih hf).2⟩

/-- Nothing is found exactly where no range contains the address. -/
theorem findRange_eq_none_iff {l : List AddressRange} {a : Nat} :
    findRange l a = none ↔ ∀ r ∈ l, rangeContains r a = false := by
  induction l with
  | nil => simp [findRange]
  | cons q l ih =>
    unfold findRange
    rw [List.forall_mem_cons]
    cases hf : findRange l a with
    | none =>
      have hl := ih.1 hf
      cases hq : rangeContains q a with
      | false => simpa using hl
      | true => simp
    | some x =>
      have hmem := findRange_mem hf
      refine iff_of_false ?_ fun hall => ?_
      · dsimp only; split <;> simp
      · rw [hall.2 x hmem.1] at hmem
        exact Bool.false_ne_true hmem.2

/-- Where the ranges lie apart, the range that contains the address is the one found. -/
theorem Dispatcher.Inv.findRange_eq {disp : Dispatcher} (h : disp.Inv) {a : Nat} {r : AddressRange}
    (hr : r ∈ disp.ranges) (hlo : r.beginAddress ≤ a) (hhi : a < r.endAddress) : findRange disp.ranges a = some r := by
  cases hf : findRange disp.ranges a with
  | none =>
    have := findRange_eq_none_iff.1 hf r hr
    rw [rangeContains_iff.2 ⟨hlo, hhi⟩] at this
    cases this
  | some q =>
    obtain ⟨hq, hcontains⟩ := findRange_mem hf
    have hin := rangeContains_iff.1 hcontains
    by_contra hne
    have := h.apart_or hr hq fun he => hne (by rw [he])
    omega

theorem Dispatcher.resolve_of_mem {disp : Dispatcher} (h : disp.Inv) {a : Nat} {r : AddressRange} (hr : r ∈ disp.ranges)
    (hlo : r.beginAddress ≤ a) (hhi : a < r.endAddress) :
    disp.resolve a = .to r.handler (a - r.beginAddress + r.offset) := by
  rw [Dispatcher.resolve, h.findRange_eq hr hlo hhi]

theorem Dispatcher.resolve_of_none {disp : Dispatcher} {a : Nat}
    (h : ∀ r ∈ disp.ranges, ¬(r.beginAddress ≤ a ∧ a < r.endAddress)) : disp.resolve a = .unresolved := by
  have hnone : findRange disp.ranges a = none :=
    findRange_eq_none_iff.2 fun r hr => Bool.eq_false_iff.2 fun hc => h r hr (rangeContains_iff.1 hc)
  rw [Dispatcher.resolve, hnone]

/-! ## Accesses of a space (R138, R139) -/

section Access
variable {s : State} {sp : Space} {a : Nat}

theorem exec_resolve_answers {r : Route} (h : (s.dispatcher sp).resolve a = r) :
    ∃ t, exec (.resolve sp a) s = .next t ∧ (t.thread s.active).reply.route = some r ∧ Continues [] s t ∧
      QuietFrame s t :=
  ⟨_, rfl, by simp [h], by simp [Continues], s.answerRoute_quiet _⟩

theorem inPort_unresolved (sz : Nat) (h : (s.dispatcher sp).resolve a = .unresolved) :
    CompletesQuietly (.inPort sp a sz) s [] (List.replicate sz 0xFF) [.unresolvedAddress] := by
  refine .of_answer ?_
  show execInPort sp a sz s = _
  rw [execInPort, h]
  rfl

theorem outPort_unresolved (sz : Nat) (v : Quad) (h : (s.dispatcher sp).resolve a = .unresolved) :
    CompletesQuietly (.outPort sp a sz v) s [] [] [.unresolvedAddress] := by
  refine .of_answer ?_
  show execOutPort sp a sz v s = _
  rw [execOutPort, h]

theorem inPort_resolved (sz : Nat) {h : Handler} {off : Nat} (hr : (s.dispatcher sp).resolve a = .to h off) :
    CompletesQuietly (.inPort sp a sz) s [.splitRead h off sz (s.wordSize h)] [] [] := by
  refine .of_pushFollow ?_
  show execInPort sp a sz s = _
  rw [execInPort, hr]

theorem outPort_resolved (sz : Nat) (v : Quad) {h : Handler} {off : Nat}
    (hr : (s.dispatcher sp).resolve a = .to h off) :
    CompletesQuietly (.outPort sp a sz v) s [.splitWrite h off sz v (s.wordSize h)] [] [] := by
  refine .of_pushFollow ?_
  show execOutPort sp a sz v s = _
  rw [execOutPort, hr]

end Access

/-- Settles O29, by whether a range contains the address. -/
theorem dispatchByRange : Obligations.DispatchByRange := by
  intro s sp a sz v hinv _
  refine ⟨fun r hr hlo hhi => ?_, fun hnone => ?_⟩
  · have hroute := Dispatcher.resolve_of_mem hinv hr hlo hhi
    exact ⟨exec_resolve_answers hroute, inPort_resolved sz hroute, outPort_resolved sz v hroute⟩
  · have hroute := Dispatcher.resolve_of_none hnone
    exact ⟨exec_resolve_answers hroute, inPort_unresolved sz hroute, outPort_unresolved sz v hroute⟩

/-- Settles O28: with its range gone, no other range contains an address of it. -/
theorem unregisterAddressRange : Obligations.UnregisterAddressRange := by
  intro s sp r hinv hr
  refine ⟨_, rfl, ?_⟩
  rw [State.unregister_dispatcher]
  refine ⟨fun q => Dispatcher.mem_unregister_ranges, Dispatcher.unregister_engine _ _ _,
    fun he hm => Dispatcher.unregister_of_mapped he hm, fun h => Dispatcher.unregister_of_unmapped h, by simp,
    s.unregister_frame sp r, fun a sz hlo hhi _ => ?_⟩
  have hroute : ((s.unregister sp r).dispatcher sp).resolve a = .unresolved := by
    refine Dispatcher.resolve_of_none fun q hq hin => ?_
    rw [State.unregister_dispatcher] at hq
    obtain ⟨hq, hne⟩ := Dispatcher.mem_unregister_ranges.1 hq
    have := hinv.apart_or hr hq (Ne.symm hne)
    omega
  exact ⟨inPort_unresolved sz hroute, fun v => outPort_unresolved sz v hroute⟩

/-! ## Engines (R140, R141) -/

theorem State.setDispatcher_only_frame (s : State) (sp : Space) (disp : Dispatcher)
    (h : disp.addrBits = (s.dispatcher sp).addrBits) : DispatcherFrame sp s (s.setDispatcher sp disp) := by
  have hframe := State.setDispatcher_frame s sp disp s.registrations h
  rwa [State.setDispatcher_registrations_self] at hframe

/-- The tiles of a host-backed range cover its addresses and no other. -/
theorem mem_range_iff_tile {r : AddressRange} {m : Nat} {b : HostBlock} (hpos : 0 < b.size) (a : Nat) :
    (r.beginAddress ≤ a ∧ a < r.endAddress) ↔ ∃ x ∈ rangeTiles r m b, x.base ≤ a ∧ a < x.limit := by
  constructor
  · rintro ⟨hlo, hhi⟩
    have hdiv := Nat.div_add_mod' (a - r.beginAddress) b.size
    have hmod := Nat.mod_lt (a - r.beginAddress) hpos
    refine ⟨_, mem_rangeTiles.2 ⟨(a - r.beginAddress) / b.size, ?_, hpos, rfl⟩, ?_, ?_⟩
    · omega
    · dsimp only; omega
    · dsimp only; omega
  · rintro ⟨x, hx, hlo, hhi⟩
    obtain ⟨k, hk, -, rfl⟩ := mem_rangeTiles.1 hx
    dsimp only at hlo hhi
    omega

/-- Each tile is of the range's block, at most one block long, and begins at a multiple of the block's size. -/
theorem rangeTiles_shape {r : AddressRange} {m : Nat} {b : HostBlock} {x : Mapping} (hx : x ∈ rangeTiles r m b) :
    x.block = m ∧ x.permissions = b.permissions ∧ x.limit - x.base ≤ b.size ∧ b.size ∣ x.base - r.beginAddress := by
  obtain ⟨k, -, -, rfl⟩ := mem_rangeTiles.1 hx
  refine ⟨rfl, rfl, ?_, ?_⟩
  · dsimp only; omega
  · dsimp only
    rw [Nat.add_sub_cancel_left]
    exact Nat.dvd_mul_left _ _

theorem mappingsOf_memory {bs : List HostBlock} {r : AddressRange} {m : Nat} {b : HostBlock}
    (hr : r.handler = .memory m)
    (hb : bs[m]? = some b) : mappingsOf bs r = rangeTiles r m b := by
  simp only [mappingsOf, hostBlockOf, hr, hb, Option.map_some]

/-- Settles O30. -/
theorem engineMappings : Obligations.EngineMappings := by
  intro s sp engine base limit
  refine ⟨fun hnone => ?attach, fun he => ?second, ?detach, fun r m b a hr hb hpos => ?tiles⟩
  case attach =>
    have hexec : exec (.establishMappings sp engine base limit) s = .next (s.setDispatcher sp
        ((s.dispatcher sp).ranges.foldl (Dispatcher.mapRange s.hostBlocks)
          { s.dispatcher sp with engine := some { engine := engine, base := base, limit := limit } })) :=
      if_neg (by simp [hnone])
    refine ⟨_, hexec, ?_, ?_, fun r => ?_, ?_, by simp,
      State.setDispatcher_only_frame s sp _ (Dispatcher.foldl_mapRange_addrBits _ _ _)⟩
    · simp [Dispatcher.foldl_mapRange_engine]
    · simp [Dispatcher.foldl_mapRange_ranges]
    · simp [Dispatcher.mem_foldl_mapRange_mapped]
    · simp [Dispatcher.foldl_mapRange_engineMap]
  case second => exact if_pos (Option.isSome_iff_ne_none.2 he)
  case detach =>
    refine ⟨_, rfl, by simp, ?_, ?_, fun x => ?_, by simp,
      State.setDispatcher_only_frame s sp _ (Dispatcher.foldl_unmapRange_addrBits _ _ _)⟩
    · refine List.eq_nil_iff_forall_not_mem.2 fun q hq => ?_
      simp only [State.setDispatcher_dispatcher, if_true] at hq
      obtain ⟨hq, hnot⟩ := Dispatcher.mem_foldl_unmapRange_mapped.1 hq
      exact hnot hq
    · simp [Dispatcher.foldl_unmapRange_ranges]
    · simp [Dispatcher.mem_foldl_unmapRange_engineMap]
  case tiles =>
    rw [mappingsOf_memory hr hb]
    exact ⟨mem_range_iff_tile hpos a, fun x hx => rangeTiles_shape hx⟩

end Sys2Proof.Machine

/-! SUPPORT. The bus side of an ATA device (R213 to R228): what each access makes of the device and answers, said once
per gate of R213 and per transfer state, and the statements about the registers and the data register. -/
namespace Sys2Proof.Machine

/-! ## An access completes with what it gave -/

section Completes
variable {i : Instr} {s : State} {d : Drive}

/-- An access that gives a reply completes with it. -/
theorem CompletesDevice.of_finishAccess {r r' : DeviceReply} (h : exec i s = .next (s.finishAccess d r)) (hr : r = r')
    (hstore : r'.dev.store = (s.device d).store) : CompletesDevice i s d r'.dev r'.bytes r'.diagnostics := by
  subst hr
  exact ⟨_, h, State.commitDevice_frame (s.answer_quiet _ _) (s.answer_continues _ _) (s.answer_answered _ _) hstore⟩

theorem CompletesDevice.of_write {k : Nat} {v : Half} {r : DeviceReply} (hexec : exec i s = s.ataWrite d k v)
    (h : (s.device d).writeIndex k v = .next r) (hstore : r.dev.store = (s.device d).store) :
    CompletesDevice i s d r.dev r.bytes r.diagnostics :=
  .of_finishAccess (hexec.trans (by rw [State.ataWrite, h, State.continueAccess])) rfl hstore

theorem CompletesDevice.of_read {k : Nat} {r : DeviceReply} (hexec : exec i s = s.ataRead d k)
    (h : AtaDevice.readIndex d (s.device d) k = r) : CompletesDevice i s d r.dev r.bytes r.diagnostics :=
  .of_finishAccess hexec h (h ▸ AtaDevice.readIndex_store d _ k)

end Completes

/-! ## The accesses of a device, by the BUSY gate -/

theorem AtaDevice.busy_eq_false_iff (dev : AtaDevice) : dev.busy = false ↔ dev.regs.status &&& 0x80 = 0 := by
  simp [AtaDevice.busy, ataBusy]

section Gate
variable {dev : AtaDevice} {k : Nat}

theorem AtaDevice.writeIndex_bad (h : 7 < k) (v : Half) : dev.writeIndex k v = .next ⟨dev, [], [.ataBadRegister]⟩ :=
  if_pos h

theorem AtaDevice.writeIndex_data (v : Half) : dev.writeIndex 0 v = .next (dev.writeData v) := rfl

theorem AtaDevice.writeIndex_register (hlo : 1 ≤ k) (hhi : k ≤ 6) (hclear : dev.busy = false) (b : Byte) :
    dev.writeIndex k (byteOnBus b) = .next ⟨{ dev with regs := dev.regs.write k b }, [], []⟩ := by
  rw [AtaDevice.writeIndex, if_neg (by omega), if_neg (by omega), if_neg (by omega), hclear, lowByte_byteOnBus]
  rfl

theorem AtaDevice.writeIndex_register_of_busy (hlo : 1 ≤ k) (hhi : k ≤ 6) (hbusy : dev.busy = true) (v : Half) :
    dev.writeIndex k v = .next ⟨dev, [], [.ataBusy]⟩ := by
  rw [AtaDevice.writeIndex, if_neg (by omega), if_neg (by omega), if_neg (by omega), if_pos hbusy]

theorem AtaDevice.writeIndex_command (v : Half) : dev.writeIndex 7 v = dev.writeCommand (lowByte v) := rfl

theorem AtaDevice.readIndex_bad (h : 7 < k) (d : Drive) :
    AtaDevice.readIndex d dev k = ⟨dev, [0xFF, 0xFF], [.ataBadRegister]⟩ :=
  if_pos h

theorem AtaDevice.readIndex_status (d : Drive) :
    AtaDevice.readIndex d dev 7 = ⟨{ dev with intrq := false }, [dev.regs.status], []⟩ := rfl

theorem AtaDevice.readIndex_of_busy (hhi : k ≤ 6) (hbusy : dev.busy = true) (d : Drive) :
    AtaDevice.readIndex d dev k = ⟨dev, [dev.regs.status], []⟩ := by
  rw [AtaDevice.readIndex, if_neg (by omega), if_neg (by omega), if_pos hbusy]

theorem AtaDevice.readIndex_data (hclear : dev.busy = false) (d : Drive) :
    AtaDevice.readIndex d dev 0 = AtaDevice.readData d dev := by
  simp [AtaDevice.readIndex, hclear]

theorem AtaDevice.readIndex_register (hlo : 1 ≤ k) (hhi : k ≤ 6) (hclear : dev.busy = false) (d : Drive) :
    AtaDevice.readIndex d dev k = ⟨dev, [dev.regs.read k], []⟩ := by
  rw [AtaDevice.readIndex, if_neg (by omega), if_neg (by omega), hclear, if_neg Bool.false_ne_true, if_neg (by omega)]

end Gate

/-! ## Registers (R213 to R223) -/

/-- Settles O31, by the BUSY gate. -/
theorem registerWritesStore : Obligations.RegisterWritesStore := by
  intro s d b
  refine ⟨fun hstatus => ?clear, fun hstatus k hlo hhi => ?busy⟩
  case clear =>
    have hclear := ((s.device d).busy_eq_false_iff).2 hstatus
    have hwrite {k : Nat} (hlo : 1 ≤ k) (hhi : k ≤ 6) := AtaDevice.writeIndex_register hlo hhi hclear b
    exact ⟨.of_write (k := 1) rfl (hwrite (by decide) (by decide)) rfl,
      .of_write (k := 2) rfl (hwrite (by decide) (by decide)) rfl,
      .of_write (k := 3) rfl (hwrite (by decide) (by decide)) rfl,
      .of_write (k := 4) rfl (hwrite (by decide) (by decide)) rfl,
      .of_write (k := 5) rfl (hwrite (by decide) (by decide)) rfl,
      .of_write (k := 6) rfl (hwrite (by decide) (by decide)) rfl⟩
  case busy =>
    have hbusy := ((s.device d).busy_iff).2 hstatus
    exact .of_write rfl (AtaDevice.writeIndex_register_of_busy hlo hhi hbusy _) rfl

/-- Settles O32: the two gates of R221 and R218. -/
theorem busyRedirectsReads : Obligations.BusyRedirectsReads := by
  intro s d b hstatus
  have hbusy := ((s.device d).busy_iff).2 hstatus
  refine ⟨fun k hhi => .of_read rfl (AtaDevice.readIndex_of_busy hhi hbusy d), ?_⟩
  show s.ataWrite d 7 (byteOnBus b) = _
  rw [State.ataWrite, AtaDevice.writeIndex_command, AtaDevice.writeCommand, if_pos hbusy, State.continueAccess]

/-- Settles O34. -/
theorem commandWriteLatches : Obligations.CommandWriteLatches := by
  intro s d b hstatus
  have hclear := ((s.device d).busy_eq_false_iff).2 hstatus
  refine .of_write (k := 7) (v := byteOnBus b) (r := ⟨_, _, _⟩) rfl ?_ rfl
  rw [AtaDevice.writeIndex_command, AtaDevice.writeCommand, hclear, lowByte_byteOnBus]
  rfl

/-- Settles O38: the status read passes the BUSY gate, the others meet it clear. -/
theorem registerReads : Obligations.RegisterReads := by
  intro s d
  refine ⟨.of_read rfl (AtaDevice.readIndex_status d), fun hstatus => ?_⟩
  have hclear := ((s.device d).busy_eq_false_iff).2 hstatus
  have hread {k : Nat} (hlo : 1 ≤ k) (hhi : k ≤ 6) := AtaDevice.readIndex_register hlo hhi hclear d
  exact ⟨.of_read (k := 1) rfl (hread (by decide) (by decide)), .of_read (k := 2) rfl (hread (by decide) (by decide)),
    .of_read (k := 3) rfl (hread (by decide) (by decide)), .of_read (k := 4) rfl (hread (by decide) (by decide)),
    .of_read (k := 5) rfl (hread (by decide) (by decide)), .of_read (k := 6) rfl (hread (by decide) (by decide))⟩

/-! ## Bad indices and the control block (R111, R217, R222, R223) -/

section Control
variable {s : State} {d : Drive} {blk : AtaBlock} {k : Nat}

theorem AtaDevice.writeControl_bad (dev : AtaDevice) (h : badIndex .control k = true) (v : Half) :
    dev.writeControl k v = ⟨dev, [], [.ataBadRegister]⟩ :=
  if_neg (bne_iff_ne.1 h)

theorem AtaDevice.readControl_bad (dev : AtaDevice) (h : badIndex .control k = true) :
    dev.readControl k = ⟨dev, [0xFF, 0xFF], [.ataBadRegister]⟩ :=
  if_neg (bne_iff_ne.1 h)

theorem ataBadIndex_write_completes (h : badIndex blk k = true) (v : Half) :
    CompletesDevice (.ataBadIndex d blk k (.write v)) s d (s.device d) [] [.ataBadRegister] := by
  cases blk with
  | command => exact .of_write rfl (AtaDevice.writeIndex_bad (of_decide_eq_true h) v) rfl
  | control => exact .of_finishAccess rfl (AtaDevice.writeControl_bad _ h v) rfl

theorem ataBadIndex_read_completes (h : badIndex blk k = true) :
    CompletesDevice (.ataBadIndex d blk k .read) s d (s.device d) [0xFF, 0xFF] [.ataBadRegister] := by
  cases blk with
  | command => exact .of_read rfl (AtaDevice.readIndex_bad (of_decide_eq_true h) d)
  | control => exact .of_finishAccess rfl (AtaDevice.readControl_bad _ h) rfl

end Control

theorem AtaDevice.deviceControl_of_clear (dev : AtaDevice) {b : Byte} (h : b &&& 0x04 = 0) :
    dev.deviceControl b = { dev with nIEN := b &&& 0x02 != 0 } :=
  if_pos h

theorem AtaDevice.deviceControl_of_set (dev : AtaDevice) {b : Byte} (h : b &&& 0x04 ≠ 0) :
    dev.deviceControl b =
      { dev with
        nIEN := b &&& 0x02 != 0, resetRequested := true,
        regs := { dev.regs with status := dev.regs.status ||| 0x80 } } :=
  if_neg h

theorem AtaDevice.deviceControl_store (dev : AtaDevice) (b : Byte) : (dev.deviceControl b).store = dev.store := by
  unfold AtaDevice.deviceControl
  split <;> rfl

/-- A Device Control write completes with what R223 makes of the device. -/
theorem ataDeviceControlW_completes (s : State) (d : Drive) (b : Byte) :
    CompletesDevice (.ataDeviceControlW d b) s d ((s.device d).deviceControl b) [] [] := by
  refine .of_finishAccess (r' := ⟨(s.device d).deviceControl b, [], []⟩) rfl ?_ (AtaDevice.deviceControl_store _ b)
  rw [AtaDevice.writeControl, if_pos rfl, lowByte_byteOnBus]

/-- Settles O39, by the register block of the bad index and by the reset bit. -/
theorem badIndexAndControlBlock : Obligations.BadIndexAndControlBlock := by
  intro s d b
  refine ⟨fun blk k v hbad => ⟨ataBadIndex_write_completes hbad v, ataBadIndex_read_completes hbad⟩,
    .of_finishAccess (r' := ⟨_, _, _⟩) rfl rfl rfl, fun hclear => ?noReset, fun hset => ?reset⟩
  case noReset => rw [← AtaDevice.deviceControl_of_clear _ hclear]; exact ataDeviceControlW_completes s d b
  case reset => rw [← AtaDevice.deviceControl_of_set _ hset]; exact ataDeviceControlW_completes s d b

/-! ## The data register (R226, R227, R228) -/

/-- What a data write puts at the cursor. -/
def AtaDevice.written (dev : AtaDevice) (v : Half) : List Host.Cell :=
  bufferPut dev.buffer dev.cursor (if dev.pio8 then [lowByte v] else [lowByte v, highByte v])

theorem AtaDevice.bufferByte_written (d : Drive) (dev : AtaDevice) (v : Half) (k : Nat) :
    bufferByte d (dev.written v) k =
      if 131072 ≤ k then bufferByte d dev.buffer k
      else if k = dev.cursor then lowByte v
      else if k = dev.cursor + 1 ∧ dev.pio8 = false then highByte v
      else bufferByte d dev.buffer k := by
  rw [AtaDevice.written, bufferByte_bufferPut, bufferCapacity]
  cases dev.pio8 with
  | true => grind
  | false => grind

section Data
variable {dev : AtaDevice} {d : Drive}

theorem AtaDevice.writeData_idle (h : dev.xfer ≠ .pioWrite) (v : Half) :
    dev.writeData v = ⟨dev, [], [.ataNoTransfer]⟩ :=
  if_neg h

theorem AtaDevice.writeData_open (h : dev.xfer = .pioWrite) (hlt : dev.nextCursor < dev.length) (v : Half) :
    dev.writeData v = ⟨{ dev with buffer := dev.written v, cursor := dev.nextCursor }, [], []⟩ := by
  rw [AtaDevice.writeData, if_pos h]
  dsimp only
  rw [if_neg (Nat.not_le.2 hlt)]
  rfl

theorem AtaDevice.writeData_end (h : dev.xfer = .pioWrite) (hle : dev.length ≤ dev.nextCursor) (v : Half) :
    dev.writeData v =
      ⟨{ dev with
          buffer := dev.written v, cursor := dev.nextCursor, xfer := .idle, continueRequested := true,
          regs := { dev.regs with status := (dev.regs.status &&& ~~~0x08) ||| 0x80 } }, [], []⟩ := by
  rw [AtaDevice.writeData, if_pos h]
  dsimp only
  rw [if_pos hle]
  rfl

theorem AtaDevice.readData_idle (h : dev.xfer ≠ .pioRead) :
    AtaDevice.readData d dev = ⟨dev, [0xFF, 0xFF], [.ataNoTransfer]⟩ :=
  if_neg h

/-- The device with the cursor behind the data access (R226). -/
def AtaDevice.moved (dev : AtaDevice) : AtaDevice := { dev with cursor := dev.nextCursor }

/-- The bytes a data read answers (R226). -/
def AtaDevice.dataBytes (d : Drive) (dev : AtaDevice) : List Byte :=
  [bufferByte d dev.buffer dev.cursor, if dev.pio8 then 0x00 else bufferByte d dev.buffer (dev.cursor + 1)]

theorem AtaDevice.readData_open (h : dev.xfer = .pioRead) (hlt : dev.nextCursor < dev.length) :
    AtaDevice.readData d dev = ⟨dev.moved, dev.dataBytes d, []⟩ := by
  rw [AtaDevice.readData, if_pos h]
  dsimp only
  rw [if_neg (Nat.not_le.2 hlt)]
  rfl

theorem AtaDevice.readData_end (h : dev.xfer = .pioRead) (hle : dev.length ≤ dev.nextCursor) :
    AtaDevice.readData d dev = ⟨dev.moved.endReadChunk, dev.dataBytes d, []⟩ := by
  rw [AtaDevice.readData, if_pos h]
  dsimp only
  rw [if_pos hle]
  rfl

theorem AtaDevice.endReadChunk_of_none (hop : dev.op = none) :
    dev.endReadChunk =
      { dev with xfer := .idle, regs := { dev.regs with status := dev.regs.status &&& ~~~0x08 } } := by
  unfold AtaDevice.endReadChunk
  split
  · rfl
  · next hsome => rw [hop] at hsome; cases hsome

theorem AtaDevice.endReadChunk_of_last {op : Operation} (hop : dev.op = some op) (h : op.remaining ≤ dev.length / 512) :
    dev.endReadChunk =
      { dev with
        xfer := .idle, op := none, regs := { dev.regs with status := dev.regs.status &&& ~~~0x08 } } := by
  rw [AtaDevice.endReadChunk, hop]
  dsimp only
  rw [Operation.advance, if_pos (Nat.sub_eq_zero_of_le h)]
  rfl

theorem AtaDevice.endReadChunk_of_more {op : Operation} (hop : dev.op = some op) (h : dev.length / 512 < op.remaining) :
    dev.endReadChunk =
      { dev with
        xfer := .idle, continueRequested := true,
        op := some { op with lba := op.lba + dev.length / 512, remaining := op.remaining - dev.length / 512 },
        regs := { dev.regs with status := (dev.regs.status &&& ~~~0x08) ||| 0x80 } } := by
  rw [AtaDevice.endReadChunk, hop]
  dsimp only
  rw [Operation.advance, if_neg (Nat.sub_ne_zero_of_lt h)]
  rfl

end Data

theorem ataDataW_completes {s : State} {d : Drive} {v : Half} {r : DeviceReply} (h : (s.device d).writeData v = r) :
    CompletesDevice (.ataDataW d v) s d r.dev r.bytes r.diagnostics :=
  .of_write (k := 0) rfl ((AtaDevice.writeIndex_data v).trans (congrArg _ h)) (h ▸ AtaDevice.writeData_store _ v)

/-- Settles O35, by whether the write reaches the end of the chunk. -/
theorem dataWriteFillsBuffer : Obligations.DataWriteFillsBuffer := by
  intro s d v
  refine ⟨fun hxfer => ⟨(s.device d).written v, AtaDevice.bufferByte_written d _ v, ?_⟩, fun hxfer => ?idle⟩
  case idle =>
    refine .of_write (k := 0) (r := ⟨s.device d, [], [.ataNoTransfer]⟩) rfl ?_ rfl
    exact congrArg _ (AtaDevice.writeData_idle hxfer v)
  rintro next rfl
  exact ⟨fun hlt => ataDataW_completes (AtaDevice.writeData_open hxfer hlt v),
    fun hle => ataDataW_completes (AtaDevice.writeData_end hxfer hle v)⟩

section DataRead
variable {s : State} {d : Drive}

theorem ataDataR_completes_open (hclear : (s.device d).busy = false) (hxfer : (s.device d).xfer = .pioRead)
    (hlt : (s.device d).nextCursor < (s.device d).length) :
    CompletesDevice (.ataDataR d) s d (s.device d).moved ((s.device d).dataBytes d) [] :=
  .of_read (k := 0) rfl ((AtaDevice.readIndex_data hclear d).trans (AtaDevice.readData_open hxfer hlt))

theorem ataDataR_completes_end (hclear : (s.device d).busy = false) (hxfer : (s.device d).xfer = .pioRead)
    (hle : (s.device d).length ≤ (s.device d).nextCursor) :
    CompletesDevice (.ataDataR d) s d (s.device d).moved.endReadChunk ((s.device d).dataBytes d) [] :=
  .of_read (k := 0) rfl ((AtaDevice.readIndex_data hclear d).trans (AtaDevice.readData_end hxfer hle))

end DataRead

/-- Settles O36, by whether the read reaches the end of the chunk, and there by what the operation in progress has
left. -/
theorem dataReadDrainsBuffer : Obligations.DataReadDrainsBuffer := by
  intro s d hstatus
  have hclear := ((s.device d).busy_eq_false_iff).2 hstatus
  refine ⟨fun hxfer => ?_, fun hxfer => ?idle⟩
  case idle =>
    exact .of_read (k := 0) rfl ((AtaDevice.readIndex_data hclear d).trans (AtaDevice.readData_idle hxfer))
  rintro next rfl bytes rfl
  refine ⟨ataDataR_completes_open hclear hxfer, fun hle => ?_⟩
  have hend := ataDataR_completes_end hclear hxfer hle
  refine ⟨fun hop => ?_, fun op hop => ⟨fun hlast => ?_, fun hmore => ?_⟩⟩
  · rw [AtaDevice.endReadChunk_of_none (dev := (s.device d).moved) hop] at hend
    exact hend
  · rw [AtaDevice.endReadChunk_of_last (dev := (s.device d).moved) hop hlast] at hend
    exact hend
  · rw [AtaDevice.endReadChunk_of_more (dev := (s.device d).moved) hop hmore] at hend
    exact hend

/-! ## A whole sector (R256) -/

/-- `2 * n` bytes of the open transfer have been answered, and nothing else has happened to the device. -/
structure Drained (d : Drive) (n : Nat) (s t : State) : Prop where
  device : t.device d = { s.device d with cursor := 2 * n }
  answered : Answered ((List.range (2 * n)).map (bufferByte d (s.device d).buffer)) [] s t
  active : t.active = s.active

theorem Answered.two_more {d : Drive} {n : Nat} {buf : List Host.Cell} {s t u : State} (hact : t.active = s.active)
    (h : Answered ((List.range (2 * n)).map (bufferByte d buf)) [] s t)
    (k : Answered [bufferByte d buf (2 * n), bufferByte d buf (2 * n + 1)] [] t u) :
    Answered ((List.range (2 * (n + 1))).map (bufferByte d buf)) [] s u := by
  have hsplit : (List.range (2 * (n + 1))).map (bufferByte d buf) =
      (List.range (2 * n)).map (bufferByte d buf) ++ [bufferByte d buf (2 * n), bufferByte d buf (2 * n + 1)] := by
    rw [Nat.mul_succ, List.range_succ, List.range_succ]
    simp
  rw [hsplit]
  exact h.trans hact k

section Sector
variable {s : State} {d : Drive} (hstatus : (s.device d).regs.status = 0x58) (hxfer : (s.device d).xfer = .pioRead)
  (hpio8 : (s.device d).pio8 = false) (hlength : (s.device d).length = 512)

include hpio8 in
theorem Drained.dataBytes {n : Nat} {t : State} (h : Drained d n s t) :
    (t.device d).dataBytes d =
      [bufferByte d (s.device d).buffer (2 * n), bufferByte d (s.device d).buffer (2 * n + 1)] := by
  simp [AtaDevice.dataBytes, h.device, hpio8]

include hpio8 hlength in
theorem Drained.nextCursor {n : Nat} {t : State} (h : Drained d n s t) :
    (t.device d).nextCursor = min (2 * n + 2) 512 := by
  simp [AtaDevice.nextCursor, AtaDevice.dataWidth, h.device, hpio8, hlength]

include hstatus in
theorem Drained.busy {n : Nat} {t : State} (h : Drained d n s t) : (t.device d).busy = false := by
  simp [AtaDevice.busy, h.device, hstatus]

include hstatus hxfer hpio8 hlength in
theorem runRows_dataReads (hcursor : (s.device d).cursor = 0) {n : Nat} (hn : n < 256) :
    ∃ t, runRows (List.replicate n (.ataDataR d)) s = .next t ∧ Drained d n s t := by
  induction n with
  | zero => exact ⟨s, rfl, by rw [Nat.mul_zero, ← hcursor], .refl s, rfl⟩
  | succ n ih =>
    obtain ⟨t, hrun, h⟩ := ih (by omega)
    have hnext := h.nextCursor hpio8 hlength
    have hlen : (t.device d).length = 512 := by rw [h.device]; exact hlength
    obtain ⟨u, hu, hdev, hans, hframe⟩ :=
      ataDataR_completes_open (h.busy hstatus) (by rw [h.device]; exact hxfer) (by omega)
    refine ⟨u, ?_, ?_, ?_, hframe.agents.active.trans h.active⟩
    · rw [List.replicate_succ', runRows_append hrun]
      exact runRows_singleton hu
    · rw [hdev.device, AtaDevice.moved, hnext, h.device, Nat.min_eq_left (by omega), Nat.mul_succ]
    · rw [h.dataBytes hpio8] at hans
      exact h.answered.two_more h.active hans

end Sector

/-- Settles O37: induction on the number of reads, then the read that ends the chunk. -/
theorem sectorIsReadWordByWord : Obligations.SectorIsReadWordByWord := by
  intro s d hstatus hxfer hpio8 hcursor hlength hop
  have hreads {n : Nat} (hn : n < 256) := runRows_dataReads hstatus hxfer hpio8 hlength hcursor hn
  refine ⟨fun n hn => ?_, ?_⟩
  · obtain ⟨t, hrun, h⟩ := hreads hn
    exact ⟨t, hrun, by rw [h.device], by rw [h.device]; exact hxfer, h.answered⟩
  · obtain ⟨t, hrun, h⟩ := hreads (show 255 < 256 by decide)
    have hnext := h.nextCursor hpio8 hlength
    have hlen : (t.device d).length = 512 := by rw [h.device]; exact hlength
    obtain ⟨u, hu, hdev, hans, -⟩ :=
      ataDataR_completes_end (h.busy hstatus) (by rw [h.device]; exact hxfer) (by omega)
    have hdone : (t.device d).moved.op = none := by rw [AtaDevice.moved, h.device]; exact hop
    rw [AtaDevice.endReadChunk_of_none hdone] at hdev
    refine ⟨u, ?_, by rw [hdev.device], ?_, ?_⟩
    · rw [show (256 : Nat) = 255 + 1 from rfl, List.replicate_succ', runRows_append hrun]
      exact runRows_singleton hu
    · rw [hdev.device, AtaDevice.moved, h.device, hstatus]
      rfl
    · rw [h.dataBytes hpio8] at hans
      have hall := h.answered.two_more h.active hans
      rwa [show 2 * (255 + 1) = 512 from rfl] at hall

end Sys2Proof.Machine

/-! SUPPORT. The commands (R119, R120, R122, R233, R240 to R252): the sector a request names, what a completion makes
of a device, and what each command's row does. -/
namespace Sys2Proof.Machine

/-! ## The sector a request names (R119, R247) -/

theorem toNat_lowNibble (b : Byte) : (b &&& 0x0F).toNat = b.toNat % 16 :=
  (BitVec.toNat_and b 0x0F).trans (Nat.and_two_pow_sub_one_eq_mod b.toNat 4)

theorem AtaDevice.activeGeometry_eq {dev : AtaDevice} {g : Geometry}
    (h : dev.geometry = some g ∨ dev.geometry = none ∧ dev.disk.defaultGeometry = g) : dev.activeGeometry = g := by
  unfold AtaDevice.activeGeometry
  obtain hsome | ⟨hnone, hdefault⟩ := h
  · rw [hsome, Option.getD_some]
  · rw [hnone, Option.getD_none, hdefault]

/-- Settles O40, by the mode bit of Drive/Head. -/
theorem sectorAddress : Obligations.SectorAddress := by
  intro dev rec g
  refine ⟨fun hlba => ?lba, fun hchs hgeometry => ?chs⟩
  case lba =>
    rw [AtaDevice.sectorAddress, if_pos (bne_iff_ne.2 hlba), lbaAddress, toNat_lowNibble]
    rfl
  case chs =>
    rw [AtaDevice.sectorAddress, if_neg (fun h => bne_iff_ne.1 h hchs), AtaDevice.activeGeometry_eq hgeometry,
      chsAddress, toNat_lowNibble]
    refine ⟨fun hout => if_pos hout, fun hpos hsector hhead => if_neg ?_⟩
    omega

/-! ## Completion (R233) -/

theorem mergeStatus_success (b : Byte) : mergeStatus b 0x50 &&& ~~~ataBusy = (b &&& 0x08) ||| 0x50 := by
  revert b; decide

theorem mergeStatus_abort (b : Byte) : mergeStatus b 0x51 &&& ~~~ataBusy = (b &&& 0x08) ||| 0x51 := by
  revert b; decide

theorem mergeStatus_transfer (b : Byte) : mergeStatus (b ||| ataDrq) 0x50 &&& ~~~ataBusy = 0x58 := by
  revert b; decide

theorem errBit_success (b : Byte) : ((b &&& 0x08) ||| 0x50) &&& ataErr = 0 := by
  revert b; decide

theorem errBit_abort (b : Byte) : ((b &&& 0x08) ||| 0x51) &&& ataErr ≠ 0 := by
  revert b; decide

theorem AtaDevice.mergeResult_success (dev : AtaDevice) :
    dev.mergeResult .success =
      { dev with regs := { dev.regs with status := (dev.regs.status &&& 0x08) ||| 0x50, error := 0x00 } } := by
  rw [AtaDevice.mergeResult, CommandResult.success, mergeStatus_success]

theorem AtaDevice.complete_success (dev : AtaDevice) :
    dev.complete .success =
      { dev with
        intrq := true,
        regs := { dev.regs with status := (dev.regs.status &&& 0x08) ||| 0x50, error := 0x00 } } := by
  rw [AtaDevice.complete, AtaDevice.mergeResult_success, if_pos (errBit_success _), AtaDevice.raiseInterrupt]

theorem AtaDevice.complete_abort (dev : AtaDevice) :
    dev.complete .abort =
      { dev with regs := { dev.regs with status := (dev.regs.status &&& 0x08) ||| 0x51, error := 0x04 } } := by
  have hmerge : dev.mergeResult .abort =
      { dev with regs := { dev.regs with status := (dev.regs.status &&& 0x08) ||| 0x51, error := 0x04 } } := by
    rw [AtaDevice.mergeResult, CommandResult.abort, mergeStatus_abort]
  rw [AtaDevice.complete, hmerge, if_neg (errBit_abort _)]

/-- A command that opens a transfer and succeeds (R224, R225, R233). -/
theorem AtaDevice.startPio_complete (dev : AtaDevice) (x : Xfer) (len : Nat) :
    (dev.startPio x len).complete .success = dev.afterTransfer x len := by
  have hstatus : ((dev.regs.status ||| ataDrq) &&& 0x08) ||| 0x50 = 0x58 :=
    (mergeStatus_success _).symm.trans (mergeStatus_transfer _)
  rw [AtaDevice.complete_success]
  simp only [AtaDevice.startPio, AtaDevice.setStatus, AtaDevice.afterTransfer, hstatus]

theorem AtaDevice.complete_store (dev : AtaDevice) (res : CommandResult) : (dev.complete res).store = dev.store := by
  unfold AtaDevice.complete
  split <;> rfl

/-! ## A row of a command completes with what its effect makes of the device -/

/-- The device with its command request taken (R232). -/
def AtaDevice.taken (dev : AtaDevice) : AtaDevice := { dev with commandRequested := false }

section Rows
variable {i : Instr} {s : State} {d : Drive} {effect : CommandEffect} {rec : RegFile}

theorem CompletesDevice.of_commit {dev : AtaDevice} (h : exec i s = .next (s.commitDevice d dev))
    (hstore : dev.store = (s.device d).store) : CompletesDevice i s d dev [] [] :=
  ⟨_, h, State.commitDevice_frame (.refl s) (.refl s) (.refl s) hstore⟩

theorem CompletesDevice.of_command {e : Executed} (hexec : exec i s = s.runCommand d effect rec)
    (h : effect d (s.device d).taken rec = .next e) (hstore : e.dev.store = (s.device d).store) :
    CompletesDevice i s d (e.dev.complete e.res) [] [] := by
  refine .of_commit (hexec.trans ?_) ((AtaDevice.complete_store _ _).trans hstore)
  unfold AtaDevice.taken at h
  rw [State.runCommand, h]

theorem CompletesDevice.of_abort (hexec : exec i s = s.runCommand d effect rec)
    (h : effect d (s.device d).taken rec = abort (s.device d).taken) :
    CompletesDevice i s d (s.device d).afterAbort [] [] := by
  have hdone := CompletesDevice.of_command hexec h rfl
  rwa [AtaDevice.complete_abort] at hdone

theorem CompletesDevice.of_success {dev : AtaDevice} (hexec : exec i s = s.runCommand d effect rec)
    (h : effect d (s.device d).taken rec = succeed dev) (hstore : dev.store = (s.device d).store) :
    CompletesDevice i s d
      { dev with
        intrq := true,
        regs := { dev.regs with status := (dev.regs.status &&& 0x08) ||| 0x50, error := 0x00 } } [] [] := by
  have hdone := CompletesDevice.of_command hexec h hstore
  rwa [AtaDevice.complete_success] at hdone

theorem CompletesDevice.of_transfer {dev : AtaDevice} {x : Xfer} {len : Nat}
    (hexec : exec i s = s.runCommand d effect rec)
    (h : effect d (s.device d).taken rec = succeed (dev.startPio x len)) (hstore : dev.store = (s.device d).store) :
    CompletesDevice i s d (dev.afterTransfer x len) [] [] := by
  have hdone := CompletesDevice.of_command hexec h hstore
  rwa [AtaDevice.startPio_complete] at hdone

end Rows

/-! ## The commands that move no data (R240, R241, R246, R251, R252) -/

/-- Settles O41: each command's effect in each of its cases. -/
theorem commandsWithoutData : Obligations.CommandsWithoutData := by
  intro s d
  refine ⟨?recalibrate, ?seek, fun hzero => ?noSectors, fun hsectors => ?geometry, fun hle => ?multiple,
    fun hlt => ?tooLarge, fun hfeature => ?eightBit, fun hfeature => ?sixteenBit, fun hne hne' => ?otherFeature,
    fun opcode _ => ?unknown⟩
  case recalibrate =>
    exact .of_success (effect := commandNoOp) (rec := s.record d 0x10) (dev := (s.device d).taken) rfl rfl rfl
  case seek =>
    exact .of_success (effect := commandNoOp) (rec := s.record d 0x70) (dev := (s.device d).taken) rfl rfl rfl
  case noSectors => exact .of_abort rfl (if_pos hzero)
  case geometry =>
    rw [← toNat_lowNibble]
    exact .of_success (dev := { (s.device d).taken with geometry := some _ }) rfl (if_neg hsectors) rfl
  case multiple =>
    exact .of_success (dev := { (s.device d).taken with multipleBlock := _ }) rfl (if_neg (Nat.not_lt.2 hle)) rfl
  case tooLarge => exact .of_abort rfl (if_pos hlt)
  case eightBit => exact .of_success (dev := { (s.device d).taken with pio8 := true }) rfl (if_pos hfeature) rfl
  case sixteenBit =>
    have hne : (s.device d).regs.feature ≠ 0x01 := by rw [hfeature]; decide
    exact .of_success (dev := { (s.device d).taken with pio8 := false }) rfl ((if_neg hne).trans (if_pos hfeature)) rfl
  case otherFeature => exact .of_abort rfl ((if_neg hne).trans (if_neg hne'))
  case unknown => exact .of_abort (effect := commandUnknown) (rec := s.record d opcode) rfl rfl

/-! ## Sector requests (R120, R237, R242 to R245) -/

/-- A byte of the buffer after a load is that of the store, within the capacity. -/
theorem AtaDevice.bufferByte_loadSectors (d : Drive) (dev : AtaDevice) (lba k x : Nat) :
    bufferByte d (dev.loadSectors lba k).buffer x =
      if x < 512 * k ∧ x < 131072 then Memory.read dev.store (512 * lba + x) else bufferByte d dev.buffer x := by
  rw [AtaDevice.loadSectors, bufferByte_bufferPut, Memory.length_readBytes, bufferCapacity, Memory.getElem?_readBytes]
  by_cases h : x < 512 * k ∧ x < 131072
  · rw [if_pos (by omega), if_pos h, Nat.sub_zero, if_pos h.1, Option.getD_some]
  · rw [if_neg (by omega), if_neg h]

theorem AtaDevice.storeAnswers_of_fault {dev : AtaDevice} {lba k : Nat} (h : dev.ioFaults.headD false = true) :
    dev.storeAnswers lba k = false := by
  rw [AtaDevice.storeAnswers, h, Bool.not_true, Bool.false_and]

theorem AtaDevice.storeAnswers_of_within {dev : AtaDevice} {lba k : Nat} (h : dev.ioFaults.headD false = false)
    (hle : lba + k ≤ dev.disk.totalSectors) : dev.storeAnswers lba k = true := by
  rw [AtaDevice.storeAnswers, h, Bool.not_false, Bool.true_and, decide_eq_true hle]

section Requests
variable {dev : AtaDevice} {rec : RegFile} {chunk lba : Nat}

theorem AtaDevice.requestedSector_of_within (h : dev.sectorAddress rec = some lba)
    (hle : lba + sectorCount rec ≤ dev.disk.totalSectors) : dev.requestedSector rec = some lba := by
  rw [AtaDevice.requestedSector, h]
  exact if_neg (Nat.not_lt.2 hle)

theorem AtaDevice.requestedSector_of_bad (h : dev.sectorAddress rec = none ∨
      ∃ lba, dev.sectorAddress rec = some lba ∧ dev.disk.totalSectors < lba + sectorCount rec) :
    dev.requestedSector rec = none := by
  unfold AtaDevice.requestedSector
  obtain hnone | ⟨lba, hsome, hlt⟩ := h
  · rw [hnone]
  · rw [hsome]
    exact if_pos hlt

theorem readCommand_of_within (h : dev.requestedSector rec = some lba)
    (hstore : dev.storeAnswers lba (min chunk (sectorCount rec)) = true) :
    readCommand chunk dev rec =
      succeed (((dev.beginOperation .read lba (sectorCount rec) chunk).loadSectors lba
        (min chunk (sectorCount rec))).startPio .pioRead (512 * min chunk (sectorCount rec))) := by
  rw [readCommand, h]
  exact if_pos hstore

theorem readCommand_of_fault (h : dev.requestedSector rec = some lba)
    (hstore : dev.storeAnswers lba (min chunk (sectorCount rec)) = false) :
    readCommand chunk dev rec = .fault .hostIoFailure := by
  rw [readCommand, h]
  exact if_neg (Bool.eq_false_iff.1 hstore)

theorem readCommand_of_bad (h : dev.requestedSector rec = none) : readCommand chunk dev rec = abort dev := by
  rw [readCommand, h]

theorem writeCommand_of_within (h : dev.requestedSector rec = some lba) :
    writeCommand chunk dev rec =
      succeed ((dev.beginOperation .write lba (sectorCount rec) chunk).startPio .pioWrite
        (512 * min chunk (sectorCount rec))) := by
  rw [writeCommand, h]

theorem writeCommand_of_bad (h : dev.requestedSector rec = none) : writeCommand chunk dev rec = abort dev := by
  rw [writeCommand, h]

end Requests

section SectorRows
variable {s : State} {d : Drive} {i : Instr} {chunk : Nat}

/-- A read row runs the read of its chunk size on the registers. -/
theorem exec_readRow (h : (i = .readSectors d ∨ i = .readSectorsNoRetry d) ∧ chunk = 1 ∨
      i = .readMultiple d ∧ chunk = (s.device d).multipleBlock ∧ 0 < chunk) :
    ∃ opcode, exec i s = s.runCommand d (fun _ => readCommand chunk) (s.record d opcode) := by
  obtain ⟨rfl | rfl, rfl⟩ | ⟨rfl, rfl, hpos⟩ := h
  · exact ⟨0x20, rfl⟩
  · exact ⟨0x21, rfl⟩
  · refine ⟨0xC4, ?_⟩
    show s.runCommand d commandReadMultiple (s.record d 0xC4) = _
    rw [State.runCommand, commandReadMultiple, if_neg (Nat.ne_of_gt hpos)]
    rfl

/-- A write row runs the write of its chunk size on the registers. -/
theorem exec_writeRow (h : (i = .writeSectors d ∨ i = .writeSectorsNoRetry d) ∧ chunk = 1 ∨
      i = .writeMultiple d ∧ chunk = (s.device d).multipleBlock ∧ 0 < chunk) :
    ∃ opcode, exec i s = s.runCommand d (fun _ => writeCommand chunk) (s.record d opcode) := by
  obtain ⟨rfl | rfl, rfl⟩ | ⟨rfl, rfl, hpos⟩ := h
  · exact ⟨0x30, rfl⟩
  · exact ⟨0x31, rfl⟩
  · refine ⟨0xC5, ?_⟩
    show s.runCommand d commandWriteMultiple (s.record d 0xC5) = _
    rw [State.runCommand, commandWriteMultiple, if_neg (Nat.ne_of_gt hpos)]
    rfl

end SectorRows

/-- Settles O42, by the address, the capacity and the host's answer. -/
theorem readCommandsLoadFirstChunk : Obligations.ReadCommandsLoadFirstChunk := by
  intro s d i chunk n hrow hn
  obtain ⟨opcode, hexec⟩ := exec_readRow hrow
  have hcount : sectorCount (s.record d opcode) = n := hn.symm
  have hbounds := sectorCount_bounds (s.record d opcode)
  rw [hcount] at hbounds
  refine ⟨fun lba haddress hle => ?within, fun hbad => ?bad, fun hblock => .of_abort rfl (if_pos hblock)⟩
  case within =>
    have hsector : (s.device d).taken.requestedSector (s.record d opcode) = some lba :=
      AtaDevice.requestedSector_of_within haddress (hcount ▸ hle)
    refine ⟨fun hok => ?loads, fun hfails => ?faults⟩
    case loads =>
      have hanswers : (s.device d).taken.storeAnswers lba (min chunk n) = true :=
        AtaDevice.storeAnswers_of_within hok (by
          show lba + min chunk n ≤ (s.device d).disk.totalSectors
          omega)
      have heffect := readCommand_of_within (chunk := chunk) hsector (by rw [hcount]; exact hanswers)
      rw [hcount] at heffect
      refine ⟨_, fun k => ?_, .of_transfer hexec heffect rfl⟩
      refine (AtaDevice.bufferByte_loadSectors d _ lba (min chunk n) k).trans ?_
      have hfits : k < 512 * min chunk n ∧ k < 131072 ↔ k < 512 * min chunk n := by omega
      rw [if_congr hfits rfl rfl]
      rfl
    case faults =>
      rw [hexec, State.runCommand]
      have heffect := readCommand_of_fault (chunk := chunk) hsector (AtaDevice.storeAnswers_of_fault hfails)
      unfold AtaDevice.taken at heffect
      rw [heffect]
  case bad =>
    refine .of_abort hexec (readCommand_of_bad (AtaDevice.requestedSector_of_bad ?_))
    rw [hcount]
    exact hbad

/-- Settles O43, by the address and the capacity. -/
theorem writeCommandsOpenFirstChunk : Obligations.WriteCommandsOpenFirstChunk := by
  intro s d i chunk n hrow hn
  obtain ⟨opcode, hexec⟩ := exec_writeRow hrow
  have hcount : sectorCount (s.record d opcode) = n := hn.symm
  refine ⟨fun lba haddress hle => ?within, fun hbad => ?bad, fun hblock => .of_abort rfl (if_pos hblock)⟩
  case within =>
    have hsector : (s.device d).taken.requestedSector (s.record d opcode) = some lba :=
      AtaDevice.requestedSector_of_within haddress (hcount ▸ hle)
    have heffect := writeCommand_of_within (chunk := chunk) hsector
    rw [hcount] at heffect
    exact .of_transfer hexec heffect rfl
  case bad =>
    refine .of_abort hexec (writeCommand_of_bad (AtaDevice.requestedSector_of_bad ?_))
    rw [hcount]
    exact hbad

/-! ## IDENTIFY DRIVE (R122, R250) -/

/-- Byte `x` of the identification structure: words, low byte before high byte. -/
def identifyByte (p : DiskParams) (x : Nat) : Byte :=
  if x % 2 = 0 then lowByte (identifyWord p (x / 2)) else highByte (identifyWord p (x / 2))

theorem identifyByte_low (p : DiskParams) (k : Nat) : identifyByte p (2 * k) = lowByte (identifyWord p k) := by
  rw [identifyByte, if_pos (by omega), Nat.mul_div_cancel_left k (by decide)]

theorem identifyByte_high (p : DiskParams) (k : Nat) : identifyByte p (2 * k + 1) = highByte (identifyWord p k) := by
  rw [identifyByte, if_neg (by omega), show (2 * k + 1) / 2 = k by omega]

theorem length_identifyBytes (p : DiskParams) (k n : Nat) : (identifyBytes p k n).length = 2 * n := by
  induction n generalizing k with
  | zero => rfl
  | succ n ih => simp only [identifyBytes, List.length_cons, ih]; omega

theorem getElem?_identifyBytes (p : DiskParams) (k n : Nat) {x : Nat} (h : x < 2 * n) :
    (identifyBytes p k n)[x]? = some (identifyByte p (2 * k + x)) := by
  induction n generalizing k x with
  | zero => omega
  | succ n ih =>
    match x with
    | 0 => exact congrArg some (identifyByte_low p k).symm
    | 1 => exact congrArg some (identifyByte_high p k).symm
    | x + 2 =>
      rw [identifyBytes, List.getElem?_cons_succ, List.getElem?_cons_succ, ih (k + 1) (by omega)]
      exact congrArg (fun y => some (identifyByte p y)) (by omega)

/-- The buffer after IDENTIFY DRIVE: the structure in its first sector, every other byte as before. -/
theorem bufferByte_identifyData (d : Drive) (buf : List Host.Cell) (p : DiskParams) (x : Nat) :
    bufferByte d (bufferPut buf 0 (identifyData p)) x = if x < 512 then identifyByte p x else bufferByte d buf x := by
  rw [bufferByte_bufferPut, identifyData, length_identifyBytes, bufferCapacity]
  by_cases h : x < 512
  · rw [if_pos (by omega), if_pos h, Nat.sub_zero, getElem?_identifyBytes p 0 256 h, Option.getD_some, Nat.mul_zero,
      Nat.zero_add]
  · rw [if_neg (by omega), if_neg h]

theorem toNat_lowByte (v : Half) : (lowByte v).toNat = v.toNat % 256 := BitVec.toNat_setWidth 8 v

theorem toNat_highByte (v : Half) : (highByte v).toNat = v.toNat / 256 := by
  have := v.isLt
  rw [highByte, BitVec.truncate_eq_setWidth, BitVec.toNat_setWidth, BitVec.toNat_ushiftRight, Nat.shiftRight_eq_div_pow]
  omega

/-- A word of the structure is put together from its two bytes. -/
theorem identifyByte_word (p : DiskParams) (k : Nat) :
    (identifyByte p (2 * k)).toNat + (identifyByte p (2 * k + 1)).toNat * 256 = (identifyWord p k).toNat := by
  rw [identifyByte_low, identifyByte_high, toNat_lowByte, toNat_highByte, Nat.mul_comm]
  exact Nat.mod_add_div _ _

theorem identifyWord_cylinders (p : DiskParams) : (identifyWord p 1).toNat ≤ 16383 := by
  have : identifyCylinders p ≤ 16383 := Nat.min_le_right _ _
  rw [identifyWord, if_pos rfl, BitVec.toNat_ofNat]
  omega

theorem identifyWord_heads {p : DiskParams} (h : p.defaultGeometry.heads < 65536) :
    (identifyWord p 3).toNat = p.defaultGeometry.heads := by
  rw [identifyWord, if_neg (by decide), if_pos ⟨rfl, h⟩, BitVec.toNat_ofNat, Nat.mod_eq_of_lt h]

theorem identifyWord_sectorsPerTrack {p : DiskParams} (h : p.defaultGeometry.sectorsPerTrack < 65536) :
    (identifyWord p 6).toNat = p.defaultGeometry.sectorsPerTrack := by
  rw [identifyWord, if_neg (by decide), if_neg (by omega), if_pos ⟨rfl, h⟩, BitVec.toNat_ofNat, Nat.mod_eq_of_lt h]

theorem identifyWord_capacity {p : DiskParams} (h : p.totalSectors < 4294967296) :
    (identifyWord p 60).toNat = p.totalSectors % 65536 ∧ (identifyWord p 61).toNat = p.totalSectors / 65536 := by
  constructor
  · rw [identifyWord, if_neg (by decide), if_neg (by omega), if_neg (by omega), if_pos ⟨rfl, h⟩, BitVec.toNat_ofNat]
  · rw [identifyWord, if_neg (by decide), if_neg (by omega), if_neg (by omega), if_neg (by omega), if_pos ⟨rfl, h⟩,
      BitVec.toNat_ofNat]
    omega

/-- Every byte of the other words is the disk's parameter. -/
theorem identifyByte_rest {p : DiskParams} {x : Nat} (h : x / 2 ∉ [1, 3, 6, 60, 61]) :
    identifyByte p x = Memory.read p.identifyRest x := by
  simp only [List.mem_cons, List.not_mem_nil, or_false, not_or] at h
  have hword : identifyWord p (x / 2) =
      wordOf (Memory.read p.identifyRest (2 * (x / 2))) (Memory.read p.identifyRest (2 * (x / 2) + 1)) := by
    rw [identifyWord, if_neg h.1, if_neg (fun hk => h.2.1 hk.1), if_neg (fun hk => h.2.2.1 hk.1),
      if_neg (fun hk => h.2.2.2.1 hk.1), if_neg (fun hk => h.2.2.2.2 hk.1)]
  rw [identifyByte, hword, lowByte_wordOf, highByte_wordOf]
  split
  · exact congrArg _ (by omega)
  · exact congrArg _ (by omega)

/-- Settles O44, by the words of the structure. -/
theorem identifyReportsCapacity : Obligations.IdentifyReportsCapacity := by
  intro s d
  have hbyte {x : Nat} (hx : x < 512) :=
    (bufferByte_identifyData d (s.device d).buffer (s.device d).disk x).trans (if_pos hx)
  refine ⟨bufferPut (s.device d).buffer 0 (identifyData (s.device d).disk),
    .of_transfer (effect := commandIdentifyDrive) (rec := s.record d 0xEC) rfl rfl rfl, fun hsectors => ?capacity,
    ?cylinders, fun hheads => ?heads, fun hsectors => ?sectors, fun k hk hrest => ?rest, fun k hk => ?beyond⟩
  case capacity =>
    obtain ⟨h60, h61⟩ := identifyWord_capacity hsectors
    have hlow := identifyByte_word (s.device d).disk 60
    have hhigh := identifyByte_word (s.device d).disk 61
    rw [hbyte (by decide), hbyte (by decide), hbyte (by decide), hbyte (by decide)]
    simp only [Nat.reduceMul, Nat.reduceAdd] at hlow hhigh
    omega
  case cylinders =>
    rw [hbyte (by decide), hbyte (by decide)]
    exact (identifyByte_word _ 1).trans_le (identifyWord_cylinders _)
  case heads =>
    rw [hbyte (by decide), hbyte (by decide)]
    exact (identifyByte_word _ 3).trans (identifyWord_heads hheads)
  case sectors =>
    rw [hbyte (by decide), hbyte (by decide)]
    exact (identifyByte_word _ 6).trans (identifyWord_sectorsPerTrack hsectors)
  case rest => rw [hbyte hk, identifyByte_rest hrest]
  case beyond => rw [bufferByte_identifyData, if_neg (Nat.not_lt.2 hk)]

end Sys2Proof.Machine

/-! SUPPORT. The demux and the XTIDE window (R272 to R276, R281 to R284): selection, broadcast, notification and the
data latch. -/
namespace Sys2Proof.Machine

/-! ## Drive/Head (R272) -/

theorem selectedDrive_eq (b : Byte) : selectedDrive b = if b &&& 0x10 ≠ 0 then .slave else .master := by
  simp [selectedDrive, driveHeadDev]

/-- What a Drive/Head write gives, by the BUSY gate. -/
def AtaDevice.driveHeadReply (dev : AtaDevice) (b : Byte) : DeviceReply :=
  { dev := if dev.regs.status &&& 0x80 = 0 then { dev with regs := { dev.regs with driveHead := b } } else dev,
    bytes := [], diagnostics := if dev.regs.status &&& 0x80 = 0 then [] else [.ataBusy] }

theorem AtaDevice.writeIndex_driveHead (dev : AtaDevice) (b : Byte) :
    dev.writeIndex 6 (byteOnBus b) = .next (dev.driveHeadReply b) := by
  unfold AtaDevice.driveHeadReply
  by_cases hstatus : dev.regs.status &&& 0x80 = 0
  · rw [AtaDevice.writeIndex_register (by decide) (by decide) (dev.busy_eq_false_iff.2 hstatus), if_pos hstatus,
      if_pos hstatus]
    rfl
  · rw [AtaDevice.writeIndex_register_of_busy (by decide) (by decide) (dev.busy_iff.2 hstatus), if_neg hstatus,
      if_neg hstatus]

theorem AtaDevice.driveHeadReply_store (dev : AtaDevice) (b : Byte) : (dev.driveHeadReply b).dev.store = dev.store := by
  unfold AtaDevice.driveHeadReply
  dsimp only
  split <;> rfl

/-- A commit after a selection differs from the state before it in the device, the demux and the active agent's
thread. -/
theorem State.selectDevice_commit {s : State} {d e : Drive} {r : DeviceReply}
    (hstore : r.dev.store = (s.device d).store) :
    DeviceUpdated d r.dev (s.selectDevice e) ((s.selectDevice e).finishAccess d r) ∧
      Answered r.bytes r.diagnostics s ((s.selectDevice e).finishAccess d r) ∧
      DeviceFrame d s ((s.selectDevice e).finishAccess d r) := by
  obtain ⟨hdev, hans, hframe⟩ := State.commitDevice_frame (s := s.selectDevice e) (State.answer_quiet _ _ _)
    (State.answer_continues _ _ _) (State.answer_answered _ _ _) ((State.selectDevice_device s e d).symm ▸ hstore)
  exact ⟨hdev, ⟨hans.bytes, hans.diagnostics, hans.handle, hans.route⟩,
    ⟨⟨hframe.pics.pics, hframe.pics.sink⟩,
      ⟨hframe.bus.io, hframe.bus.mem, hframe.bus.registrations, hframe.bus.hostBlocks⟩, hframe.other, hframe.latch,
      ⟨hframe.agents.xtMap, hframe.agents.wiring, hframe.agents.active, hframe.agents.schedule, hframe.agents.clock,
        hframe.agents.others, hframe.agents.program⟩,
      ⟨hframe.memory.host, hframe.memory.store⟩⟩⟩

/-- Settles O50: the selection, then the write at the newly selected device. -/
theorem driveHeadSelects : Obligations.DriveHeadSelects := by
  intro s b d hd
  obtain rfl : selectedDrive b = d := (selectedDrive_eq b).trans hd.symm
  obtain ⟨hdev, hans, hframe⟩ := State.selectDevice_commit (e := selectedDrive b)
    ((s.device (selectedDrive b)).driveHeadReply_store b)
  refine ⟨_, ?_, hdev.mux, hdev.device, hdev.follow, hans, hframe⟩
  show (s.selectDevice (selectedDrive b)).ataWrite (selectedDrive b) 6 (byteOnBus b) = _
  rw [State.ataWrite, State.selectDevice_device, AtaDevice.writeIndex_driveHead, State.continueAccess]

/-! ## Device Control (R274) -/

section Broadcast
variable (m : Demux) (b : Byte)

theorem Demux.controlByte_srst (d : Drive) : m.controlByte d b &&& 0x04 = b &&& 0x04 := by
  unfold Demux.controlByte
  cases m.nIEN d <;> revert b <;> decide

theorem Demux.controlByte_nIEN (d : Drive) : (m.controlByte d b &&& 0x02 != 0) = m.nIEN d := by
  unfold Demux.controlByte
  cases m.nIEN d <;> revert b <;> decide

theorem Demux.shadow_fields :
    (m.shadow b).selected = m.selected ∧ (m.shadow b).out = m.out ∧
      (m.shadow b).nIENMaster = (if m.selected = .master then b &&& 0x02 != 0 else m.nIENMaster) ∧
      (m.shadow b).nIENSlave = (if m.selected = .slave then b &&& 0x02 != 0 else m.nIENSlave) := by
  unfold Demux.shadow
  cases m.selected with
  | master => exact ⟨rfl, rfl, rfl, rfl⟩
  | slave => exact ⟨rfl, rfl, rfl, rfl⟩

/-- What a device makes of its part of the broadcast. -/
theorem AtaDevice.deviceControl_controlByte (dev : AtaDevice) (d : Drive) :
    dev.deviceControl (m.controlByte d b) =
      { dev with
        nIEN := m.nIEN d,
        resetRequested := dev.resetRequested || (b &&& 0x04 != 0),
        regs := { dev.regs with
          status := if b &&& 0x04 = 0 then dev.regs.status else dev.regs.status ||| 0x80 } } := by
  have hsrst := m.controlByte_srst b d
  by_cases hb : b &&& 0x04 = 0
  · rw [AtaDevice.deviceControl_of_clear dev (hsrst.trans hb), m.controlByte_nIEN, if_pos hb, hb]
    simp
  · rw [AtaDevice.deviceControl_of_set dev (hsrst ▸ hb), m.controlByte_nIEN, if_neg hb, bne_iff_ne.2 hb, Bool.or_true]

end Broadcast

/-- The demux and the devices after the broadcast, before `updateMux`. -/
def State.broadcast (s : State) (b : Byte) : State :=
  ((s.setMux (s.mux.shadow b)).setDevice .master
    (s.master.deviceControl ((s.mux.shadow b).controlByte .master b))).setDevice .slave
    (s.slave.deviceControl ((s.mux.shadow b).controlByte .slave b))

theorem State.muxDeviceControl_eq (s : State) (b : Byte) : s.muxDeviceControl b = (s.broadcast b).updateMux := rfl

theorem State.broadcast_mux (s : State) (b : Byte) : (s.broadcast b).mux = s.mux.shadow b := by
  simp [State.broadcast]

theorem State.broadcast_device (s : State) (b : Byte) (d : Drive) :
    (s.broadcast b).device d = (s.device d).deviceControl ((s.mux.shadow b).controlByte d b) := by
  cases d <;> rfl

theorem State.broadcast_sameAgents (s : State) (b : Byte) : SameAgents s (s.broadcast b) :=
  ⟨rfl, rfl, rfl, rfl, rfl, fun _ _ => rfl, rfl⟩

/-- Settles O51: the broadcast, then `updateMux`. -/
theorem deviceControlIsBroadcast : Obligations.DeviceControlIsBroadcast := by
  intro s b
  obtain ⟨hmux, hpics, hsink, hio, hmem, hreg, hblk, hlatch, hdev, hagents⟩ := State.updateMux_fields (s.broadcast b)
  obtain ⟨hcont, hans⟩ := State.updateMux_thread (s.broadcast b)
  obtain ⟨hselected, hout, hmaster, hslave⟩ := s.mux.shadow_fields b
  rw [State.broadcast_mux, hselected] at hmux
  rw [State.broadcast_mux, hout] at hcont
  have hdevice (d : Drive) : (s.broadcast b).updateMux.device d = _ := (hdev d).trans (State.broadcast_device s b d)
  refine ⟨(s.broadcast b).updateMux, congrArg Host.Outcome.next (s.muxDeviceControl_eq b), ?selected, ?master, ?slave,
    ?out, fun d => ?device, hcont,
    ⟨hans.bytes, hans.diagnostics, hans.handle, hans.route⟩, ⟨hpics, hsink⟩, ⟨hio, hmem, hreg, hblk⟩, hlatch,
    (s.broadcast_sameAgents b).trans hagents, .of_eq hblk fun d => ?store⟩
  case selected => rw [hmux]; exact hselected
  case master => rw [hmux]; exact hmaster
  case slave => rw [hmux]; exact hslave
  case out => rw [hmux, hdev]
  case device =>
    rw [hdevice, AtaDevice.deviceControl_controlByte, hmux]
    cases d <;> rfl
  case store => rw [hdevice, AtaDevice.deviceControl_store]

/-! ## The control-block read and notifications (R273, R275, R276) -/

/-- Settles O52: the read only answers, the notification is `updateMux`. -/
theorem demuxStatusAndNotification : Obligations.DemuxStatusAndNotification := by
  intro s
  refine ⟨.of_answer rfl, fun d => ?_⟩
  obtain ⟨hmux, hpics, hsink, hio, hmem, hreg, hblk, hlatch, hdev, hagents⟩ := State.updateMux_fields s
  obtain ⟨hcont, hans⟩ := State.updateMux_thread s
  exact ⟨s.updateMux, rfl, hmux, hcont, hans, ⟨hpics, hsink⟩, ⟨hio, hmem, hreg, hblk⟩, hdev, hlatch, hagents,
    .of_eq hblk fun d => congrArg AtaDevice.store (hdev d)⟩

/-! ## The data latch (R281 to R284) -/

/-- A data read answers two bytes, or one while BUSY (R226, R228, R221). -/
theorem AtaDevice.readIndex_data_bytes (d : Drive) (dev : AtaDevice) :
    (∃ lo hi, (AtaDevice.readIndex d dev 0).bytes = [lo, hi]) ∨ ∃ lo, (AtaDevice.readIndex d dev 0).bytes = [lo] := by
  cases hbusy : dev.busy with
  | true => exact .inr ⟨_, congrArg DeviceReply.bytes (AtaDevice.readIndex_of_busy (by decide) hbusy d)⟩
  | false =>
    rw [AtaDevice.readIndex_data hbusy, AtaDevice.readData]
    split
    · exact .inl ⟨_, _, rfl⟩
    · exact .inl ⟨_, _, rfl⟩

/-- With the word `v` latched the access touches the device, the demux and the thread as without. -/
theorem State.setLatch_finishAccess {s : State} {d : Drive} {r : DeviceReply} (v : Half)
    (hstore : r.dev.store = (s.device d).store) :
    DeviceUpdated d r.dev s ((s.setLatch v).finishAccess d r) ∧
      Answered r.bytes r.diagnostics s ((s.setLatch v).finishAccess d r) ∧
      DeviceFrame d (s.setLatch v) ((s.setLatch v).finishAccess d r) := by
  obtain ⟨hdev, hans, hframe⟩ := State.commitDevice_frame (s := s.setLatch v) (State.answer_quiet _ _ _)
    (State.answer_continues _ _ _) (State.answer_answered _ _ _) hstore
  exact ⟨⟨hdev.device, hdev.mux, hdev.follow⟩, ⟨hans.bytes, hans.diagnostics, hans.handle, hans.route⟩, hframe⟩

/-- Two states with the same update of one device and the other device as each other agree in the channel. -/
theorem DeviceUpdated.agree {d : Drive} {dev : AtaDevice} {s t u : State} (ht : DeviceUpdated d dev s t)
    (hu : DeviceUpdated d dev s u) (hother : t.device (otherDrive d) = u.device (otherDrive d)) :
    (∀ e, t.device e = u.device e) ∧ t.mux = u.mux ∧ (t.thread s.active).follow = (u.thread s.active).follow := by
  have hdevice (e : Drive) : t.device e = u.device e := by
    by_cases he : e = d
    · rw [he, ht.device, hu.device]
    · rwa [show e = otherDrive d by revert he; cases e <;> cases d <;> decide]
  have hmux : t.mux = u.mux := by rw [ht.mux, hu.mux, hdevice]
  have hfollow : Continues (muxEvents s s.mux.out t.mux.out) s u := hmux ▸ hu.follow
  exact ⟨hdevice, hmux, Eq.trans ht.follow (Eq.symm hfollow)⟩

/-- The word of a data read is put together from the bytes it answers, one byte extended with zeros. -/
theorem DeviceReply.answered_word {r : DeviceReply} {s u : State}
    (hbytes : (∃ lo hi, r.bytes = [lo, hi]) ∨ ∃ lo, r.bytes = [lo]) (h : Answered r.bytes r.diagnostics s u) :
    Answered [lowByte r.word, highByte r.word] r.diagnostics s u ∨
      highByte r.word = 0 ∧ Answered [lowByte r.word] r.diagnostics s u := by
  rw [DeviceReply.word, lowByte_wordOf, highByte_wordOf]
  obtain ⟨lo, hi, heq⟩ | ⟨lo, heq⟩ := hbytes
  · rw [heq] at h ⊢
    exact .inl h
  · rw [heq] at h ⊢
    exact .inr ⟨rfl, h⟩

theorem DeviceReply.word_eq_append (r : DeviceReply) : r.word = highByte r.word ++ lowByte r.word := by
  rw [DeviceReply.word, lowByte_wordOf, highByte_wordOf, wordOf_eq_append]

theorem exec_xtDataLowR {s : State} {o : Nat} (hmap : s.xtAt o = .commandBlock 0) {r : DeviceReply}
    (hr : AtaDevice.readIndex s.mux.selected (s.device s.mux.selected) 0 = r) :
    exec (.xtDataLowR o) s =
      .next ((s.setLatch r.word).finishAccess s.mux.selected { r with bytes := [lowByte r.word] }) := by
  show s.xtRead o = _
  rw [State.xtRead, hmap]
  subst hr
  rfl

/-- Settles O53: the same access with and without its word latched. -/
theorem xtideLowByteRead : Obligations.XtideLowByteRead := by
  intro s o hmap
  have hstore := AtaDevice.readIndex_store s.mux.selected (s.device s.mux.selected) 0
  have hbytes := AtaDevice.readIndex_data_bytes s.mux.selected (s.device s.mux.selected)
  generalize hr : AtaDevice.readIndex s.mux.selected (s.device s.mux.selected) 0 = r at hstore hbytes
  obtain ⟨hudev, huans, huframe⟩ := State.commitDevice_frame (d := s.mux.selected)
    (s.answer_quiet r.bytes r.diagnostics) (s.answer_continues _ _) (s.answer_answered _ _) hstore
  obtain ⟨htdev, htans, htframe⟩ := State.setLatch_finishAccess (s := s) (d := s.mux.selected)
    (r := { r with bytes := [lowByte r.word] }) r.word hstore
  obtain ⟨hdevices, hmux, hfollow⟩ := htdev.agree hudev (htframe.other.trans huframe.other.symm)
  refine ⟨_, s.finishAccess s.mux.selected r, lowByte r.word, highByte r.word, r.diagnostics,
    exec_xtDataLowR hmap hr, ?_, DeviceReply.answered_word hbytes huans,
    htframe.latch.trans r.word_eq_append, htans, hdevices, hmux, hfollow,
    ⟨htframe.pics.pics, htframe.pics.sink⟩,
    ⟨htframe.bus.io, htframe.bus.mem, htframe.bus.registrations, htframe.bus.hostBlocks⟩,
    ⟨htframe.agents.xtMap, htframe.agents.wiring, htframe.agents.active, htframe.agents.schedule, htframe.agents.clock,
      htframe.agents.others, htframe.agents.program⟩,
    ⟨htframe.memory.host, htframe.memory.store⟩⟩
  rw [exec_muxForward_read, State.ataRead, hr]

/-- Settles O54, by what the offset is mapped to. -/
theorem xtideLatch : Obligations.XtideLatch := by
  intro s o b
  refine ⟨fun hmap => ⟨.of_answer ?read, ?write⟩, fun hmap => ?low⟩
  case read =>
    show s.xtRead o = _
    rw [State.xtRead, hmap]
    rfl
  case write =>
    refine ⟨s.setLatch (wordOf (lowByte s.latch) b), ?_, wordOf_eq_append _ _, ⟨rfl, rfl⟩, ⟨rfl, rfl, rfl, rfl⟩,
      fun _ => rfl, rfl, ⟨rfl, rfl, rfl, rfl, rfl, fun _ _ => rfl, rfl⟩, ⟨fun _ _ => rfl, fun _ _ => rfl⟩, rfl,
      ⟨(List.append_nil _).symm, (List.append_nil _).symm, rfl, rfl⟩⟩
    show s.xtWrite o b = _
    rw [State.xtWrite, hmap]
  case low =>
    obtain ⟨t, ht, hframe⟩ := State.ataWrite_completes (s := s) (d := s.mux.selected) (i := 0)
      (highByte s.latch ++ b) (.inl (by decide))
    refine ⟨t, ?_, (exec_muxForward_write (by decide) s _).trans ht, hframe.latch⟩
    show s.xtWrite o b = _
    rw [State.xtWrite, hmap]
    show s.ataWrite s.mux.selected 0 (wordOf b (highByte s.latch)) = _
    rw [wordOf_eq_append, ht]

end Sys2Proof.Machine

/-! SUPPORT. The worker of an ATA device (R45, R230 to R237) and the runs that are fair to it (R7, R78): which step it
takes, what that step makes of the device, that a stopped worker stays stopped, and that a request is taken or
dropped. -/
namespace Sys2Proof.Machine

/-! ## What a command leaves of a device -/

/-- What no command touches: the store and the requests. -/
structure AtaDevice.SameMailbox (dev dev' : AtaDevice) : Prop where
  store : dev'.store = dev.store
  stopped : dev'.stopped = dev.stopped
  commandRequested : dev'.commandRequested = dev.commandRequested

theorem CommandChange.mailbox {dev dev' : AtaDevice} (h : CommandChange dev dev') : dev.SameMailbox dev' := by
  cases h <;> exact ⟨rfl, rfl, rfl⟩

theorem AtaDevice.complete_mailbox (dev : AtaDevice) (res : CommandResult) : dev.SameMailbox (dev.complete res) := by
  unfold AtaDevice.complete
  split <;> exact ⟨rfl, rfl, rfl⟩

/-- BUSY is off after every completion (R233). -/
theorem AtaDevice.complete_busyBit (dev : AtaDevice) (res : CommandResult) :
    (dev.complete res).regs.status &&& 0x80 = 0 := by
  have hcleared (b : Byte) : b &&& ~~~ataBusy &&& 0x80 = 0 := by revert b; decide
  unfold AtaDevice.complete
  split
  · exact hcleared _
  · exact hcleared _

/-! ## A stopped worker stays stopped (R236) -/

theorem AtaDevice.endReadChunk_stopped (dev : AtaDevice) : dev.endReadChunk.stopped = dev.stopped := by
  unfold AtaDevice.endReadChunk
  split
  · rfl
  · split <;> rfl

theorem AtaDevice.readData_stopped (d : Drive) (dev : AtaDevice) :
    (AtaDevice.readData d dev).dev.stopped = dev.stopped := by
  unfold AtaDevice.readData
  split
  · dsimp only
    split
    · exact AtaDevice.endReadChunk_stopped _
    · rfl
  · rfl

theorem AtaDevice.readIndex_stopped (d : Drive) (dev : AtaDevice) (k : Nat) :
    (AtaDevice.readIndex d dev k).dev.stopped = dev.stopped := by
  unfold AtaDevice.readIndex
  split_ifs
  · rfl
  · rfl
  · rfl
  · exact AtaDevice.readData_stopped d dev
  · rfl

theorem AtaDevice.writeData_stopped (dev : AtaDevice) (v : Half) : (dev.writeData v).dev.stopped = dev.stopped := by
  unfold AtaDevice.writeData
  split
  · dsimp only
    split <;> rfl
  · rfl

theorem AtaDevice.writeIndex_stopped {dev : AtaDevice} {k : Nat} {v : Half} {r : DeviceReply}
    (h : dev.writeIndex k v = .next r) : r.dev.stopped = dev.stopped := by
  unfold AtaDevice.writeIndex at h
  split_ifs at h
  · cases h; rfl
  · cases h; exact dev.writeData_stopped v
  · unfold AtaDevice.writeCommand at h
    split_ifs at h
    cases h; rfl
  · cases h; rfl
  · cases h; rfl

theorem AtaDevice.continueRead_stopped {dev dev' : AtaDevice} {op : Operation} (h : dev.continueRead op = .next dev') :
    dev'.stopped = dev.stopped := by
  unfold AtaDevice.continueRead at h
  dsimp only at h
  split_ifs at h
  cases h
  exact (AtaDevice.complete_mailbox _ _).stopped

theorem AtaDevice.continueWrite_stopped {d : Drive} {dev dev' : AtaDevice} {op : Operation}
    (h : AtaDevice.continueWrite d dev op = .next dev') : dev'.stopped = dev.stopped := by
  unfold AtaDevice.continueWrite at h
  dsimp only at h
  split_ifs at h
  split at h
  · cases h; exact (AtaDevice.complete_mailbox _ _).stopped
  · cases h; rfl

/-- No row starts a stopped worker. -/
theorem DeviceChange.keeps_stopped {i : Instr} {d : Drive} {dev dev' : AtaDevice} (h : DeviceChange i d dev dev')
    (hs : dev.stopped = true) : dev'.stopped = true := by
  cases h with
  | write k v r hr => exact (AtaDevice.writeIndex_stopped hr).trans hs
  | read k => exact (AtaDevice.readIndex_stopped d dev k).trans hs
  | control b =>
    unfold AtaDevice.deviceControl
    split <;> exact hs
  | command b rec e _ he =>
    exact (AtaDevice.complete_mailbox _ _).stopped.trans ((commandEffect_change he).mailbox.stopped.trans hs)
  | stop _ => rfl
  | reset _ => exact hs
  | continueRead op _ _ _ hr => exact (AtaDevice.continueRead_stopped hr).trans hs
  | continueWrite op _ _ _ hr => exact (AtaDevice.continueWrite_stopped hr).trans hs

theorem Effect.keeps_stopped {i : Instr} {s t : State} {d : Drive} (h : Effect i s t)
    (hs : (s.device d).stopped = true) : (t.device d).stopped = true := by
  obtain heq | hchange := h.devices d
  · rw [heq]; exact hs
  · exact hchange.keeps_stopped hs

/-- Of the other events only a construction in its place does. -/
theorem EventEffect.keeps_stopped {e : Event} {s t : State} {d : Drive} (h : EventEffect s e t)
    (hne : e ≠ .constructDevice d) (hs : (s.device d).stopped = true) : (t.device d).stopped = true := by
  obtain ⟨hsame, -⟩ | ⟨c, -, -, hdev⟩ | ⟨c, rfl, -, hdev⟩ := h.devices
  · rw [hsame]; exact hs
  · rw [hdev]
    split
    · next heq => rw [← heq]; exact hs
    · exact hs
  · rw [hdev, if_neg fun heq => hne (congrArg Event.constructDevice heq.symm)]
    exact hs

theorem step_keeps_stopped {s t : State} {d : Drive} (hs : (s.device d).stopped = true) (h : step s = .next t)
    (hne : ∀ u, s.nextEvent ≠ some (.constructDevice d, u)) : (t.device d).stopped = true := by
  obtain ⟨-, rfl⟩ | ⟨e, u, hu, h⟩ := step_cases h
  · exact hs
  · have hstopped : (u.device d).stopped = true := by rw [(State.takeEvent_taken hu).devices]; exact hs
    obtain ⟨i, -, h⟩ | h := State.runEvent_cases h
    · exact (exec_effect h).keeps_stopped hstopped
    · refine h.keeps_stopped (fun heq => hne u ?_) hstopped
      rw [hu, heq]

/-! ## The step a worker takes (R230) -/

section Worker
variable {s : State} {d : Drive}

theorem AtaDevice.workerKind_of_stopped {dev : AtaDevice} (h : dev.stopped = true) : dev.workerKind = none := if_pos h

theorem AtaDevice.workerKind_of_stopRequested {dev : AtaDevice} (h : dev.stopped = false)
    (hstop : dev.stopRequested = true) : dev.workerKind = some .stop := by
  simp [AtaDevice.workerKind, h, hstop]

theorem AtaDevice.workerKind_of_resetRequested {dev : AtaDevice} (h : dev.stopped = false)
    (hstop : dev.stopRequested = false) (hreset : dev.resetRequested = true) : dev.workerKind = some .reset := by
  simp [AtaDevice.workerKind, h, hstop, hreset]

/-- A worker that runs has a step enabled while a command is requested, and it continues none before that. -/
theorem AtaDevice.workerKind_of_commandRequested {dev : AtaDevice} (h : dev.stopped = false)
    (hcommand : dev.commandRequested = true) :
    dev.workerKind = some .stop ∨ dev.workerKind = some .reset ∨ dev.workerKind = some .command := by
  simp only [AtaDevice.workerKind, h, hcommand, Bool.false_eq_true, if_false, if_true]
  split
  · exact .inl rfl
  split
  · exact .inr (.inl rfl)
  · exact .inr (.inr rfl)

/-- The kind of a continuation is that of the operation in progress. -/
theorem AtaDevice.opKind_of_workerKind {dev : AtaDevice} {op : Operation} (hop : dev.op = some op) :
    (dev.workerKind = some .continueRead → op.kind = .read) ∧
      (dev.workerKind = some .continueWrite → op.kind = .write) := by
  simp only [AtaDevice.workerKind, hop]
  generalize op.kind = kind
  cases kind with
  | read => exact ⟨fun _ => rfl, by split_ifs <;> exact nofun⟩
  | write => exact ⟨by split_ifs <;> exact nofun, fun _ => rfl⟩

theorem State.workerStep_stop (h : (s.device d).workerKind = some .stop) :
    s.workerStep d = .next (s.commitDevice d (s.device d).workerStop) := by
  rw [State.workerStep, h]

theorem State.workerStep_reset (h : (s.device d).workerKind = some .reset) :
    s.workerStep d = .next (s.commitDevice d (s.device d).workerReset) := by
  rw [State.workerStep, h]

theorem State.workerStep_command (h : (s.device d).workerKind = some .command) :
    s.workerStep d = s.runCommand d (commandEffect (s.device d).regs.command) (s.device d).regs := by
  rw [State.workerStep, h, State.workerCommand]

theorem State.workerStep_continueRead {op : Operation} (h : (s.device d).workerKind = some .continueRead)
    (hop : (s.device d).op = some op) : s.workerStep d = s.finishWorker d ((s.device d).continueRead op) := by
  have hkind := (AtaDevice.opKind_of_workerKind hop).1 h
  simp only [State.workerStep, h, State.workerContinue, hop, hkind]

theorem State.workerStep_continueWrite {op : Operation} (h : (s.device d).workerKind = some .continueWrite)
    (hop : (s.device d).op = some op) :
    s.workerStep d = s.finishWorker d (AtaDevice.continueWrite d (s.device d) op) := by
  have hkind := (AtaDevice.opKind_of_workerKind hop).2 h
  simp only [State.workerStep, h, State.workerContinue, hop, hkind]

end Worker

/-! ## Destruction and the join (R45, R236) -/

theorem State.requestStop_frame (s : State) (d : Drive) : DeviceFrame d s (s.requestStop d) := by
  have hne : otherDrive d ≠ d := by cases d <;> decide
  refine ⟨⟨by simp [State.requestStop], by simp [State.requestStop]⟩, ?bus, by simp [State.requestStop, hne],
    by simp [State.requestStop], ?agents, .of_eq (by simp [State.requestStop]) fun c => ?store⟩
  case bus => constructor <;> simp [State.requestStop]
  case agents =>
    constructor
    case others => intro a _; simp [State.requestStop]
    all_goals simp [State.requestStop]
  case store =>
    rw [State.requestStop, State.setDevice_device]
    split
    · next heq => rw [heq]
    · rfl

/-- What follows an operation of a device without touching more than the thread is of the same frame. -/
theorem DeviceFrame.trans_quiet {d : Drive} {s t u : State} (h : DeviceFrame d s t) (k : QuietFrame t u) :
    DeviceFrame d s u :=
  ⟨h.pics.trans k.pics, h.bus.trans k.bus, (k.channel.device _).trans h.other, k.channel.latch.trans h.latch,
    h.agents.trans k.agents, h.memory.trans k.memory⟩

theorem State.teardown_frame (s : State) (d : Drive) : DeviceFrame d s (s.teardown d) :=
  (s.requestStop_frame d).trans_quiet (State.pushFollow_quiet _ _)

/-- Settles O45: the stop and the reset, the stopped worker, the destruction and the join. -/
theorem workerStopsAndResets : Obligations.WorkerStopsAndResets := by
  refine ⟨fun s d hrunning => ⟨fun hstop => ?stop, fun hstop hreset => ?reset⟩, fun s d hstopped => ?stopped, fun s d =>
    ⟨⟨s.teardown d, rfl, ?device, ?mux, ?continues, ?answered, s.teardown_frame d⟩, fun hstopped hfollow => ?done,
      fun hwaits => ?waits⟩⟩
  case stop =>
    exact .of_commit (State.workerStep_stop (AtaDevice.workerKind_of_stopRequested hrunning hstop)) rfl
  case reset =>
    exact .of_commit (State.workerStep_reset (AtaDevice.workerKind_of_resetRequested hrunning hstop hreset)) rfl
  case stopped =>
    exact ⟨AtaDevice.workerKind_of_stopped hstopped, fun t h hne => step_keeps_stopped hstopped h hne⟩
  case device => simp [State.teardown, State.requestStop]
  case mux => simp [State.teardown, State.requestStop]
  case continues => simp [Continues, State.teardown, State.requestStop]
  case answered => constructor <;> simp [State.teardown, State.requestStop]
  case done =>
    have hended : s.workerEnded d = true := by simp [State.workerEnded, hstopped, hfollow]
    show Host.Outcome.next (s.joinWorker d) = _
    rw [State.joinWorker, if_pos hended]
  case waits =>
    have halive : s.workerEnded d ≠ true := by
      obtain h | h := hwaits <;> simp [State.workerEnded, h]
    refine ⟨s.pushFollow [.join d], ?_, s.pushFollow_continues _, s.pushFollow_answered _, s.pushFollow_quiet _⟩
    show Host.Outcome.next (s.joinWorker d) = _
    rw [State.joinWorker, if_neg halive]

/-! ## A command's step (R232, R233) -/

theorem commandEffect_unknown {b : Byte} (h : knownOpcode b = false) : commandEffect b = commandUnknown := by
  simp only [knownOpcode, Bool.or_eq_false_iff, beq_eq_false_iff_ne, ne_eq] at h
  simp only [commandEffect, h, if_false, or_self]

/-- The row of an opcode runs the effect of that opcode. -/
theorem exec_decodeOpcode (d : Drive) (b : Byte) (s : State) :
    exec (decodeOpcode d b) s = s.runCommand d (commandEffect b) (s.record d b) := by
  cases hknown : knownOpcode b with
  | false =>
    rw [decodeOpcode_unknown d hknown, commandEffect_unknown hknown]
    rfl
  | true =>
    simp only [knownOpcode, Bool.or_eq_true, beq_iff_eq, or_assoc] at hknown
    rcases hknown with rfl | rfl | rfl | rfl | rfl | rfl | rfl | rfl | rfl | rfl | rfl | rfl <;> rfl

/-- A command is not stopped by a fault unless the host fails a store access (R237). -/
theorem readCommand_completes {dev : AtaDevice} (h : dev.ioFaults.headD false = false) (chunk : Nat) (rec : RegFile) :
    ∃ e, readCommand chunk dev rec = .next e := by
  cases hsector : dev.requestedSector rec with
  | none => exact ⟨_, readCommand_of_bad hsector⟩
  | some lba =>
    have hle : lba + sectorCount rec ≤ dev.disk.totalSectors := by
      unfold AtaDevice.requestedSector at hsector
      split at hsector
      · cases hsector
      · split_ifs at hsector
        cases hsector
        omega
    have hanswers := AtaDevice.storeAnswers_of_within (lba := lba) (k := min chunk (sectorCount rec)) h (by omega)
    exact ⟨_, readCommand_of_within hsector hanswers⟩

theorem writeCommand_completes (dev : AtaDevice) (chunk : Nat) (rec : RegFile) :
    ∃ e, writeCommand chunk dev rec = .next e := by
  cases hsector : dev.requestedSector rec with
  | none => exact ⟨_, writeCommand_of_bad hsector⟩
  | some lba => exact ⟨_, writeCommand_of_within hsector⟩

theorem commandEffect_completes {dev : AtaDevice} (h : dev.ioFaults.headD false = false) (b : Byte) (d : Drive)
    (rec : RegFile) : ∃ e, commandEffect b d dev rec = .next e := by
  unfold commandEffect
  split
  · exact ⟨_, rfl⟩
  split
  · exact readCommand_completes h 1 rec
  split
  · exact writeCommand_completes dev 1 rec
  split
  · unfold commandInitializeDriveParameters; split <;> exact ⟨_, rfl⟩
  split
  · unfold commandReadMultiple
    split
    · exact ⟨_, rfl⟩
    · exact readCommand_completes h _ rec
  split
  · unfold commandWriteMultiple
    split
    · exact ⟨_, rfl⟩
    · exact writeCommand_completes dev _ rec
  split
  · unfold commandSetMultipleMode; split <;> exact ⟨_, rfl⟩
  split
  · exact ⟨_, rfl⟩
  split
  · unfold commandSetFeatures; split_ifs <;> exact ⟨_, rfl⟩
  · exact ⟨_, rfl⟩

section Command
variable {s : State} {d : Drive}

/-- A command's step that completes takes the request. -/
theorem State.runCommand_requestTaken {t : State} {b : Byte} {rec : RegFile}
    (h : s.runCommand d (commandEffect b) rec = .next t) : (t.device d).commandRequested = false := by
  unfold State.runCommand at h
  cases he : commandEffect b d { s.device d with commandRequested := false } rec with
  | next e =>
    rw [he] at h
    cases h
    rw [(State.commitDevice_spec (.refl s) (.refl s) (.refl s)).1.device]
    exact (AtaDevice.complete_mailbox _ _).commandRequested.trans (commandEffect_change he).mailbox.commandRequested
  | fault f => rw [he] at h; cases h
  | refused r => rw [he] at h; cases h

theorem exec_workerCommand (h : (s.device d).workerKind = some .command) :
    exec (.workerCommand d) s = exec (decodeOpcode d (s.device d).regs.command) s :=
  (State.workerStep_command h).trans (exec_decodeOpcode d _ s).symm

theorem workerCommand_completes (h : (s.device d).workerKind = some .command)
    (hok : (s.device d).ioFaults.headD false = false) :
    ∃ t, exec (.workerCommand d) s = .next t ∧ (t.device d).commandRequested = false ∧
      (t.device d).regs.status &&& 0x80 = 0 ∧ DeviceFrame d s t := by
  have hexec : exec (.workerCommand d) s = _ := State.workerStep_command h
  obtain ⟨e, he⟩ :=
    commandEffect_completes (dev := (s.device d).taken) hok (s.device d).regs.command d (s.device d).regs
  obtain ⟨t, ht, hdev, -, hframe⟩ := CompletesDevice.of_command hexec he (commandEffect_change he).mailbox.store
  refine ⟨t, ht, State.runCommand_requestTaken (hexec.symm.trans ht), ?_, hframe⟩
  rw [hdev.device]
  exact AtaDevice.complete_busyBit _ _

end Command

/-! ## Fair runs (R7, R78) -/

section Runs
variable {r : Nat → State} {k : Nat}

/-- Taking an event and performing it leave the wiring. -/
theorem step_wiring {s t : State} (h : step s = .next t) : t.wiring = s.wiring := by
  obtain ⟨-, rfl⟩ | ⟨e, u, hu, h⟩ := step_cases h
  · rfl
  · exact (State.runEvent_agents h).wiring.trans (State.takeEvent_taken hu).wiring

theorem Arrives.device {s t : State} (h : Arrives s t) (d : Drive) : t.device d = s.device d := by
  rw [h.rest]; cases d <;> rfl

theorem Arrives.wiring {s t : State} (h : Arrives s t) : t.wiring = s.wiring := by rw [h.rest]

/-- Whichever step of the worker is enabled, it takes the requested command, drops it or stops the worker. -/
theorem workerStep_serves {s t : State} {d : Drive} (hrunning : (s.device d).stopped = false)
    (hcommand : (s.device d).commandRequested = true) (h : s.workerStep d = .next t) :
    (t.device d).commandRequested = false ∨ (t.device d).stopped = true := by
  obtain hkind | hkind | hkind := AtaDevice.workerKind_of_commandRequested hrunning hcommand
  · rw [State.workerStep_stop hkind] at h
    cases h
    rw [(State.commitDevice_spec (.refl s) (.refl s) (.refl s)).1.device]
    exact .inr rfl
  · rw [State.workerStep_reset hkind] at h
    cases h
    rw [(State.commitDevice_spec (.refl s) (.refl s) (.refl s)).1.device]
    exact .inl rfl
  · rw [State.workerStep_command hkind] at h
    exact .inl (State.runCommand_requestTaken h)

/-- A step that begins a new one of the worker is its enabled step. -/
theorem step_of_worker {s : State} {d : Drive} {kind : WorkerKind} (h : s.takesWorkerStep d)
    (hkind : (s.device d).workerKind = some kind) : step s = (s.beginStep (.worker d)).workerStep d := by
  obtain ⟨hagent, hfollow⟩ := h
  have hevent := State.nextEvent_of_worker hagent (by rw [hagent]; exact hfollow) hkind
  obtain ⟨i, hrow, hexec⟩ : ∃ i, decodeWorker d (some kind) = .row i ∧ ∀ u, exec i u = u.workerStep d := by
    cases kind <;> exact ⟨_, rfl, fun _ => rfl⟩
  rw [← hkind] at hrow
  rw [step_of_row hevent hrow, hexec]

/-- In a fair run no command stays requested for ever at a worker that runs. -/
theorem FairToDevices.command_served (hr : FairToDevices r) (d : Drive) (k : Nat) :
    ∃ j, k ≤ j ∧ (((r j).device d).commandRequested = false ∨ ((r j).device d).stopped = true) := by
  by_contra hnone
  have hwaiting (j : Nat) (hj : k ≤ j) :
      ((r j).device d).commandRequested = true ∧ ((r j).device d).stopped = false := by
    constructor
    · exact Bool.eq_true_of_not_eq_false fun h => hnone ⟨j, hj, .inl h⟩
    · exact Bool.eq_false_of_not_eq_true fun h => hnone ⟨j, hj, .inr h⟩
  have henabled (j : Nat) (hj : k ≤ j) : ∃ kind, ((r j).device d).workerKind = some kind := by
    obtain ⟨hc, hs⟩ := hwaiting j hj
    obtain h | h | h := AtaDevice.workerKind_of_commandRequested hs hc <;> exact ⟨_, h⟩
  obtain ⟨j, hj, htakes⟩ := hr.begins d k fun j hj => by
    obtain ⟨kind, hkind⟩ := henabled j hj
    rw [hkind]; exact nofun
  obtain ⟨t, ht, harrives⟩ := hr.run j
  obtain ⟨kind, hkind⟩ := henabled j hj
  rw [step_of_worker htakes hkind] at ht
  obtain ⟨hc, hs⟩ := hwaiting j hj
  refine hnone ⟨j + 1, Nat.le_succ_of_le hj, ?_⟩
  rw [harrives.device]
  exact workerStep_serves (s := (r j).beginStep (.worker d)) hs hc ht

/-- What an agent has still to do stays until its next step, which comes, and so does the wiring. -/
theorem Run.next_turn {a : Agent} (hr : Run r) (n : Nat) (hturn : (r (k + n)).nextAgent = a) :
    ∃ j, k ≤ j ∧ (r j).nextAgent = a ∧ ((r j).thread a).follow = ((r k).thread a).follow ∧
      (r j).wiring = (r k).wiring := by
  induction n generalizing k with
  | zero => exact ⟨k, Nat.le_refl k, hturn, rfl, rfl⟩
  | succ n ih =>
    by_cases hnow : (r k).nextAgent = a
    · exact ⟨k, Nat.le_refl k, hnow, rfl, rfl⟩
    obtain ⟨j, hj, hagent, hfollow, hwiring⟩ := ih (k := k + 1) (by rwa [Nat.add_assoc, Nat.add_comm 1 n])
    obtain ⟨t, ht, harrives⟩ := hr k
    refine ⟨j, Nat.le_of_succ_le hj, hagent, hfollow.trans ?_, hwiring.trans (harrives.wiring.trans (step_wiring ht))⟩
    rw [harrives.follow, (stepLeavesOtherAgents _ _ ht).2 a (Ne.symm hnow)]

theorem FairRun.pit_turn (hr : FairRun r) (k : Nat) :
    ∃ j, k ≤ j ∧ (r j).nextAgent = .pit ∧ ((r j).thread .pit).follow = ((r k).thread .pit).follow ∧
      (r j).wiring = (r k).wiring := by
  obtain ⟨j, hj, hturn⟩ := hr.pit k
  exact hr.run.next_turn (j - k) (by rwa [Nat.add_sub_cancel' hj])

end Runs

/-- Settles O46: a requested command, the PIT's pulse, and the step of a command. -/
theorem workerRunsCommand : Obligations.WorkerRunsCommand := by
  refine ⟨fun r d k hr _ => hr.command_served d k, fun r l k hr hwire => ⟨fun hfollow => ?asserts,
    fun e es hfollow => ?performs⟩, fun s d hkind => ⟨exec_workerCommand hkind, workerCommand_completes hkind⟩⟩
  case asserts =>
    obtain ⟨j, hj, hagent, hsame, hwiring⟩ := hr.pit_turn k
    have hevent := State.nextEvent_of_pit hagent (by rw [hagent, hsame, hfollow]) (hwiring ▸ hwire)
    exact ⟨j, _, hj, hevent, by simp⟩
  case performs =>
    obtain ⟨j, hj, hagent, hsame, -⟩ := hr.pit_turn k
    have hevent := State.nextEvent_of_follow (s := r j) (by rw [hagent, hsame, hfollow])
    exact ⟨j, _, hj, hevent, by simp [hagent]⟩

/-! ## The next chunk (R234, R235, R237) -/

section Chunks
variable {s : State} {d : Drive} {op : Operation}

theorem AtaDevice.continueRead_of_answer {dev : AtaDevice}
    (h : dev.storeAnswers op.lba (min op.chunk op.remaining) = true) :
    dev.continueRead op =
      .next ((({ dev with continueRequested := false } : AtaDevice).loadSectors op.lba
        (min op.chunk op.remaining)).afterTransfer .pioRead (512 * min op.chunk op.remaining)) := by
  rw [← AtaDevice.startPio_complete]
  exact if_pos h

/-- Settles O47: the load, then the transfer of the chunk. -/
theorem workerLoadsNextChunk : Obligations.WorkerLoadsNextChunk := by
  intro s d op hkind hop hle
  have hexec : exec (.workerContinueRead d) s = s.finishWorker d ((s.device d).continueRead op) :=
    State.workerStep_continueRead hkind hop
  refine ⟨fun hok => ?loads, fun hfails => ?faults⟩
  case loads =>
    rw [AtaDevice.continueRead_of_answer (AtaDevice.storeAnswers_of_within hok hle)] at hexec
    exact ⟨_, AtaDevice.bufferByte_loadSectors d _ op.lba _, .of_commit hexec rfl⟩
  case faults =>
    have hfault : (s.device d).continueRead op = .fault .hostIoFailure :=
      if_neg (Bool.eq_false_iff.1 (AtaDevice.storeAnswers_of_fault hfails))
    rw [hexec, hfault, State.finishWorker]

/-- The store after the first `k` sectors of the buffer are put at sector `lba`. -/
def AtaDevice.flushedStore (d : Drive) (dev : AtaDevice) (lba k : Nat) : Memory :=
  Memory.writeBytes dev.store (512 * lba) (bufferBytes d dev.buffer 0 (512 * k))

theorem AtaDevice.read_flushedStore (d : Drive) (dev : AtaDevice) (lba k x : Nat) :
    Memory.read (AtaDevice.flushedStore d dev lba k) x =
      if 512 * lba ≤ x ∧ x < 512 * lba + 512 * k then bufferByte d dev.buffer (x - 512 * lba)
      else Memory.read dev.store x := by
  rw [AtaDevice.flushedStore, Memory.read_writeBytes, length_bufferBytes]
  by_cases h : 512 * lba ≤ x ∧ x < 512 * lba + 512 * k
  · rw [if_pos h, if_pos h, getElem?_bufferBytes, if_pos (by omega), Option.getD_some, Nat.zero_add]
  · rw [if_neg h, if_neg h]

/-- A commit of a device with the chunk stored changes the bytes of those sectors and no other byte. -/
theorem State.finishWorker_storing {i : Instr} {dev : AtaDevice} {lba k : Nat}
    (hexec : exec i s = s.finishWorker d (.next dev))
    (hstore : dev.store = AtaDevice.flushedStore d (s.device d) lba k) :
    ∃ t, exec i s = .next t ∧
      (∀ x, x < 512 * k → t.storeByte d (512 * lba + x) = bufferByte d (s.device d).buffer x) ∧
      StoringFrame d (512 * lba) (512 * k) s t ∧ Answered [] [] s t ∧ DeviceUpdated d dev s t := by
  obtain ⟨hdev, hans, hpics, hbus, hother, hlatch, hagents⟩ :=
    State.commitDevice_spec (d := d) (dev := dev) (.refl s) (.refl s) (.refl s)
  have hread (x : Nat) : (s.commitDevice d dev).storeByte d x =
      Memory.read (AtaDevice.flushedStore d (s.device d) lba k) x := by
    rw [State.storeByte, hdev.device, hstore]
  refine ⟨s.commitDevice d dev, hexec, fun x hx => ?_,
    ⟨hpics, hbus, hother, hlatch, hagents, fun m x => ?_, fun x hx => ?_, fun x => ?_⟩, hans, hdev⟩
  · rw [hread, AtaDevice.read_flushedStore, if_pos (by omega), Nat.add_sub_cancel_left]
  · rw [State.hostByte, hbus.hostBlocks, State.hostByte]
  · rw [hread, AtaDevice.read_flushedStore, if_neg (by omega)]
    rfl
  · rw [State.storeByte, hother, State.storeByte]

/-- The device with the chunk stored and the request taken. -/
def AtaDevice.flushed (d : Drive) (dev : AtaDevice) (op : Operation) : AtaDevice :=
  { dev with
    continueRequested := false, store := AtaDevice.flushedStore d dev op.lba (dev.length / 512),
    ioFaults := dev.ioFaults.tail }

theorem AtaDevice.continueWrite_of_more {dev : AtaDevice} (h : dev.storeAnswers op.lba (dev.length / 512) = true)
    (hmore : dev.length / 512 < op.remaining) :
    AtaDevice.continueWrite d dev op =
      .next ({ dev.flushed d op with
          op := some { op with
            lba := op.lba + dev.length / 512, remaining := op.remaining - dev.length / 512 } }.afterTransfer .pioWrite
        (512 * min op.chunk (op.remaining - dev.length / 512))) := by
  rw [← AtaDevice.startPio_complete]
  unfold AtaDevice.continueWrite
  dsimp only
  rw [if_pos h, Operation.advance, if_neg (Nat.sub_ne_zero_of_lt hmore)]
  rfl

theorem AtaDevice.continueWrite_of_last {dev : AtaDevice} (h : dev.storeAnswers op.lba (dev.length / 512) = true)
    (hlast : op.remaining ≤ dev.length / 512) :
    AtaDevice.continueWrite d dev op =
      .next { dev.flushed d op with
        op := none,
        regs := { dev.regs with status := (dev.regs.status &&& 0x08) ||| 0x50, error := 0x00 } } := by
  unfold AtaDevice.continueWrite
  dsimp only
  rw [if_pos h, Operation.advance, if_pos (Nat.sub_eq_zero_of_le hlast)]
  exact congrArg _ (AtaDevice.mergeResult_success _)

/-- Settles O48, by whether sectors are left. -/
theorem workerStoresChunk : Obligations.WorkerStoresChunk := by
  intro s d op k hkind hop hk hle
  subst hk
  have hexec : exec (.workerContinueWrite d) s = s.finishWorker d (AtaDevice.continueWrite d (s.device d) op) :=
    State.workerStep_continueWrite hkind hop
  refine ⟨fun hok => ?stores, fun hfails => ?faults⟩
  case stores =>
    have hanswers := AtaDevice.storeAnswers_of_within hok hle
    obtain hmore | hlast := Nat.lt_or_ge ((s.device d).length / 512) op.remaining
    · rw [AtaDevice.continueWrite_of_more hanswers hmore] at hexec
      obtain ⟨t, ht, hbytes, hframe, hans, hdev⟩ := State.finishWorker_storing hexec rfl
      exact ⟨t, _, ht, hbytes, hframe, hans, fun _ => hdev, fun hlast => absurd hmore (Nat.not_lt.2 hlast)⟩
    · rw [AtaDevice.continueWrite_of_last hanswers hlast] at hexec
      obtain ⟨t, ht, hbytes, hframe, hans, hdev⟩ := State.finishWorker_storing hexec rfl
      exact ⟨t, _, ht, hbytes, hframe, hans, fun hmore => absurd hmore (Nat.not_lt.2 hlast), fun _ => hdev⟩
  case faults =>
    have hfault : AtaDevice.continueWrite d (s.device d) op = .fault .hostIoFailure :=
      if_neg (Bool.eq_false_iff.1 (AtaDevice.storeAnswers_of_fault hfails))
    rw [hexec, hfault, State.finishWorker]

end Chunks

end Sys2Proof.Machine

/-! SUPPORT. Construction (R7 d, R10, R36, R37, R46, R54 to R56): the state after construction meets the invariants,
and a PIC or a device constructed later holds the power-up values. -/
namespace Sys2Proof.Machine

/-! ## Components at power-up meet their invariants -/

theorem Dispatcher.constructed_poweredUp (addrBits : Nat) : (Dispatcher.constructed addrBits).PoweredUp :=
  ⟨rfl, rfl, rfl, rfl⟩

theorem Dispatcher.PoweredUp.inv {disp : Dispatcher} (h : disp.PoweredUp) : disp.Inv := by
  constructor
  · rw [h.ranges]; exact nofun
  · rw [h.ranges]; exact .nil

theorem Dispatcher.PoweredUp.mappingInv {disp : Dispatcher} (h : disp.PoweredUp) (blocks : List HostBlock) :
    disp.MappingInv blocks := by
  refine ⟨?_, fun hattached => absurd h.engine hattached, fun _ => ⟨h.mapped, h.engineMap⟩⟩
  rw [h.ranges]
  exact nofun

/-! ## The chaining of the two PICs (R10) -/

theorem reset_cascade (n : Fin 8) :
    (#v[none, none, some 1, none, none, none, none, none] : Vector (Option Nat) 8).get n =
      if n = 2 then some 1 else none := by
  revert n; decide

/-- Only line 2 of PIC 0 has a secondary, PIC 1. -/
theorem reset_secondary {p k : Nat} {q : Pic} {n : Fin 8} (hq : State.reset.pics[p]? = some q)
    (h : q.secondary.get n = some k) : p = 0 ∧ n = 2 ∧ k = 1 := by
  match p with
  | 0 =>
    obtain rfl : Pic.constructed #v[none, none, some 1, none, none, none, none, none] = q := Option.some.inj hq
    have h := (reset_cascade n).symm.trans h
    split at h
    · next hn => exact ⟨rfl, hn, (Option.some.inj h).symm⟩
    · cases h
  | 1 =>
    obtain rfl : Pic.constructed noSecondaries = q := Option.some.inj hq
    exact nomatch (noSecondaries_get n).symm.trans h
  | p + 2 => exact nomatch hq

theorem reset_chained {p k : Nat} (h : State.reset.Chained p k) : p = 0 ∧ k = 1 := by
  obtain ⟨q, n, hq, hsecondary⟩ := h
  obtain ⟨hp, -, hk⟩ := reset_secondary hq hsecondary
  exact ⟨hp, hk⟩

theorem reset_topologyInv : State.reset.TopologyInv where
  present := fun p k h => by
    obtain ⟨-, rfl⟩ := reset_chained h
    decide
  once := fun p p' k q q' n n' hq hq' h h' => by
    obtain ⟨rfl, rfl, -⟩ := reset_secondary hq h
    obtain ⟨rfl, rfl, -⟩ := reset_secondary hq' h'
    exact ⟨rfl, rfl⟩
  acyclic := fun p h => by
    obtain ⟨k, hlast⟩ : ∃ k, State.reset.Chained k p := by
      cases h with
      | single h => exact ⟨p, h⟩
      | tail _ h => exact ⟨_, h⟩
    obtain ⟨k', hhead⟩ : ∃ k', State.reset.Chained p k' := by
      obtain ⟨k', h, -⟩ := Relation.TransGen.head'_iff.1 h
      exact ⟨k', h⟩
    have := (reset_chained hlast).2
    have := (reset_chained hhead).1
    omega

theorem reset_pic {q : Pic} (hq : q ∈ State.reset.pics) : ∃ secondary, q = Pic.constructed secondary := by
  obtain rfl | rfl : q = Pic.constructed #v[none, none, some 1, none, none, none, none, none] ∨
      q = Pic.constructed noSecondaries := by simpa [State.reset] using hq
  · exact ⟨_, rfl⟩
  · exact ⟨_, rfl⟩

theorem reset_picInv : State.reset.PicInv := by
  intro q hq
  obtain ⟨secondary, rfl⟩ := reset_pic hq
  exact Pic.constructed_inv secondary

theorem reset_device (d : Drive) : State.reset.device d = AtaDevice.constructed Config.exampleDisk := by
  cases d <;> rfl

theorem reset_channelInv : State.reset.ChannelInv where
  devices := fun d => by rw [reset_device]; exact AtaDevice.constructed_inv _
  out := rfl

theorem reset_memoryInv : State.reset.MemoryInv where
  blocks := fun b hb => by
    obtain rfl : b = HostBlock.constructed 65536 0 1 := List.mem_singleton.1 hb
    exact ⟨.nil, nofun⟩
  stores := fun d => by rw [reset_device]; exact ⟨.nil, nofun⟩
  buffers := fun d => by rw [reset_device]; exact .nil

/-! ## Later constructions (R7 d) -/

theorem constructDevice_completes {s : State} {d : Drive} (hstopped : (s.device d).stopped = true)
    (hfollow : (s.thread (.worker d)).follow = []) :
    ∃ t, s.runEvent (.constructDevice d) = .next t ∧
      DeviceUpdated d (devicePoweredUp (s.device d).disk (s.device d).store (s.device d).ioFaults) s t ∧
      Answered [] [] s t ∧ DeviceFrame d s t := by
  have hended : s.workerEnded d = true := by simp [State.workerEnded, hstopped, hfollow]
  have hstore : (s.device d).rebuilt.store = (s.device d).store := rfl
  exact ⟨_, if_pos hended, State.commitDevice_frame (.refl s) (.refl s) (.refl s) hstore⟩

theorem constructPic_completes (s : State) :
    ∃ t, s.runEvent (.constructPic none) = .next t ∧ t.pics = s.pics ++ [picPoweredUp (Vector.replicate 8 none)] ∧
      (t.thread s.active).reply.handle = some s.pics.length ∧ Continues [] s t ∧ t.sink = s.sink ∧ PicFrame s t := by
  have hquiet : QuietFrame (s.setPics (s.pics ++ [Pic.constructed noSecondaries])) (s.addPic s.pics) :=
    State.answerHandle_quiet _ _
  refine ⟨s.addPic s.pics, rfl, rfl, ?_, ?_, rfl,
    ⟨⟨rfl, rfl, rfl, rfl⟩, ⟨rfl, rfl, rfl, rfl⟩, ?_, .of_eq rfl fun d => ?_⟩⟩
  · simp [State.addPic]
  · simp [Continues, State.addPic]
  · have hpics : SameAgents s (s.setPics (s.pics ++ [Pic.constructed noSecondaries])) :=
      ⟨rfl, rfl, rfl, rfl, rfl, fun _ _ => rfl, rfl⟩
    exact hpics.trans hquiet.agents
  · exact congrArg AtaDevice.store (hquiet.channel.device d)

/-- Settles O60, from the components at power-up. -/
theorem resetMeetsInvariants : Obligations.ResetMeetsInvariants := by
  have hio : State.reset.io.PoweredUp := Dispatcher.constructed_poweredUp 64
  have hmem : State.reset.mem.PoweredUp := Dispatcher.constructed_poweredUp 64
  refine ⟨reset_picInv, ⟨hio.inv, hmem.inv⟩, reset_channelInv, reset_memoryInv, ⟨hio.mappingInv _, hmem.mappingInv _⟩,
    reset_topologyInv, fun s d => constructDevice_completes, constructPic_completes, fun q hq => ?_, fun d => ?_,
    hio, hmem, rfl, rfl⟩
  · obtain ⟨secondary, rfl⟩ := reset_pic hq
    rfl
  · rw [reset_device]
    rfl

end Sys2Proof.Machine
